-- ==== Sys2Proof/Word.lean ====
section
/-!
DEFINITION. The word types of the pixel-art scaler core (00_scope.md R8, R9, R13): registers and packed colours are
32 bits, RGB values and LUT entries 24 bits.
-/

namespace Sys2Proof

/-- A register, a pixel-memory word or a packed colour: 32 bits (R13, R20, R42). -/
abbrev Word := BitVec 32

/-- A 24-bit RGB value, or a 24-bit YUV entry of the LUT (R13, R31). -/
abbrev Rgb := BitVec 24

end Sys2Proof
end

