-- ==== Sys2Proof/Syntax.lean ====
section
/-!
DEFINITION. The instructions of the core: one constructor per row of spec/opcode_table.json. The table has four formats:
cmd32 (the value the host writes to CMD, 30_encoding.md R53, R54), recipe16 (R56), entry64 (R57) and bus41 (R59, R60).
-/

namespace Sys2Proof

/-- One constructor per row of the opcode table. -/
inductive Instr where
  /-- NOP (R110). -/
  | nop
  /-- LUT_INIT (R65). -/
  | lutInit
  /-- LUT_DEINIT (R66). -/
  | lutDeinit
  /-- LOOKUP (R67). -/
  | lookup
  /-- DIFFERS (R72). -/
  | differs
  /-- CLASSIFY (R75). -/
  | classify
  /-- DISPATCH with its edge pattern operand PAT (R98). -/
  | dispatch (pat : BitVec 8)
  /-- PIXEL (R99). -/
  | pixel
  /-- MAGNIFY (R102). -/
  | magnify
  /-- MIX_3_1 (R82). -/
  | mix31
  /-- MIX_2_1_1 (R83). -/
  | mix211
  /-- MIX_7_1 (R84). -/
  | mix71
  /-- MIX_2_7_7 (R85). -/
  | mix277
  /-- MIX_5_3 (R86). -/
  | mix53
  /-- MIX_4_2_1 (R87). -/
  | mix421
  /-- MIX_6_1_1 (R88). -/
  | mix611
  /-- MIX_2_3_3 (R89). -/
  | mix233
  /-- MIX_14_1_1 (R90). -/
  | mix1411
  /-- MIX_1_1 (R91). -/
  | mix11
  /-- RECIPE_COPY: KIND 0, the centre colour (R56, R93). -/
  | recipeCopy
  /-- RECIPE_MIX_3_1: KIND 1 over two neighbourhood indices (R56, R93). -/
  | recipeMix31 (i1 i2 : BitVec 4)
  /-- RECIPE_MIX_2_1_1: KIND 2. -/
  | recipeMix211 (i1 i2 i3 : BitVec 4)
  /-- RECIPE_MIX_7_1: KIND 3. -/
  | recipeMix71 (i1 i2 : BitVec 4)
  /-- RECIPE_MIX_2_7_7: KIND 4. -/
  | recipeMix277 (i1 i2 i3 : BitVec 4)
  /-- RECIPE_MIX_5_3: KIND 5. -/
  | recipeMix53 (i1 i2 : BitVec 4)
  /-- RECIPE_MIX_4_2_1: KIND 6. -/
  | recipeMix421 (i1 i2 i3 : BitVec 4)
  /-- RECIPE_MIX_6_1_1: KIND 7. -/
  | recipeMix611 (i1 i2 i3 : BitVec 4)
  /-- RECIPE_MIX_2_3_3: KIND 8. -/
  | recipeMix233 (i1 i2 i3 : BitVec 4)
  /-- RECIPE_MIX_14_1_1: KIND 9. -/
  | recipeMix1411 (i1 i2 i3 : BitVec 4)
  /-- RECIPE_MIX_1_1: KIND 10. -/
  | recipeMix11 (i1 i2 : BitVec 4)
  /-- ENTRY_PLAIN: COND = 0, the recipe word RD (R57, R94). -/
  | entryPlain (rdWord : BitVec 16)
  /-- ENTRY_COND: COND = 1, recipeIfDiffer RD, recipeIfSame RS, test neighbours TA and TB (R57, R94). -/
  | entryCond (rdWord rsWord : BitVec 16) (ta tb : BitVec 4)
  /-- rd: a host read of the register at an index (R59, R112). -/
  | rd (index : BitVec 8)
  /-- wr: a host write of DATA to the register at an index (R59, R111). -/
  | wr (index : BitVec 8) (data : Word)
  /-- clrfault: the pseudo-instruction for wr STATUS, 2 (R60, R118). -/
  | clrfault
deriving DecidableEq, Repr

/-- A code word in one of the four formats of the opcode table. -/
inductive CodeWord where
  /-- A command word, the value the host writes to CMD (R53). -/
  | cmd (v : BitVec 32)
  /-- A recipe word (R56). -/
  | recipe (r : BitVec 16)
  /-- A dispatch-table entry (R57). -/
  | entry (e : BitVec 64)
  /-- A bus transaction (R59). -/
  | bus (t : BitVec 41)
deriving DecidableEq, Repr

/-- Why the decoder rejects a code word. -/
inductive Reject where
  /-- A command word that R55 turns into ILLEGAL_CMD. -/
  | illegalCmd (v : BitVec 32)
  /-- A recipe word that is not well formed (R56). -/
  | malformedRecipe (r : BitVec 16)
  /-- A table entry that is not well formed (R57). -/
  | malformedEntry (e : BitVec 64)
deriving DecidableEq, Repr

end Sys2Proof
end

