-- ==== Sys2Proof/Decode.lean ====
section
/-!
DEFINITION. The decoder of the four formats of the opcode table, total and rejecting by name, and the encoder
(30_encoding.md R53 to R61). Also the well-formedness of recipe words, table entries and tables (R56 to R58).
-/

namespace Sys2Proof

/-! ## Fields of the code words -/

/-- OP of a command word, bits 7:0 (R53). -/
def cmdOp (v : BitVec 32) : BitVec 8 := v.extractLsb' 0 8
/-- PAT of a command word, bits 15:8 (R53). -/
def cmdPat (v : BitVec 32) : BitVec 8 := v.extractLsb' 8 8
/-- Bits 31:16 of a command word, which must be 0 (R53). -/
def cmdHigh (v : BitVec 32) : BitVec 16 := v.extractLsb' 16 16

/-- KIND of a recipe word, bits 3:0 (R56). -/
def recipeKind (r : BitVec 16) : BitVec 4 := r.extractLsb' 0 4
/-- I1 of a recipe word, bits 7:4 (R56). -/
def recipeI1 (r : BitVec 16) : BitVec 4 := r.extractLsb' 4 4
/-- I2 of a recipe word, bits 11:8 (R56). -/
def recipeI2 (r : BitVec 16) : BitVec 4 := r.extractLsb' 8 4
/-- I3 of a recipe word, bits 15:12 (R56). -/
def recipeI3 (r : BitVec 16) : BitVec 4 := r.extractLsb' 12 4

/-- RD of a table entry, bits 15:0 (R57). -/
def entryRd (e : BitVec 64) : BitVec 16 := e.extractLsb' 0 16
/-- RS of a table entry, bits 31:16 (R57). -/
def entryRs (e : BitVec 64) : BitVec 16 := e.extractLsb' 16 16
/-- TA of a table entry, bits 35:32 (R57). -/
def entryTa (e : BitVec 64) : BitVec 4 := e.extractLsb' 32 4
/-- TB of a table entry, bits 39:36 (R57). -/
def entryTb (e : BitVec 64) : BitVec 4 := e.extractLsb' 36 4
/-- COND of a table entry, bit 40 (R57). -/
def entryIsCond (e : BitVec 64) : Bool := e.getLsbD 40
/-- Bits 63:41 of a table entry, which must be 0 (R57). -/
def entryHigh (e : BitVec 64) : BitVec 23 := e.extractLsb' 41 23

/-- DIR of a bus transaction, bit 40: true for a write (R59). -/
def busIsWrite (t : BitVec 41) : Bool := t.getLsbD 40
/-- INDEX of a bus transaction, bits 39:32 (R59). -/
def busIndex (t : BitVec 41) : BitVec 8 := t.extractLsb' 32 8
/-- DATA of a bus transaction, bits 31:0 (R59). -/
def busData (t : BitVec 41) : Word := t.extractLsb' 0 32

/-! ## Well-formed recipes, entries and tables (R56 to R58) -/

/-- A neighbourhood index is 0 to 8 (R56). -/
def indexOk (i : BitVec 4) : Bool := decide (i.toNat ≤ 8)

/-- Recipe kinds 1, 3, 5 and 10 call a 2-input mixer function: f = KIND - 1 in 0, 2, 4, 9 (R56 (d)). -/
def kindTakesTwo (k : BitVec 4) : Bool := k == 1 || k == 3 || k == 5 || k == 10

/-- A recipe word is well formed: conditions (a) to (e) of R56. -/
def recipeWf (r : BitVec 16) : Bool :=
  if recipeKind r == 0 then
    recipeI1 r == 0 && recipeI2 r == 0 && recipeI3 r == 0
  else
    decide ((recipeKind r).toNat ≤ 10) && indexOk (recipeI1 r) && indexOk (recipeI2 r) &&
      (if kindTakesTwo (recipeKind r) then recipeI3 r == 0 else indexOk (recipeI3 r))

/-- A table entry is well formed (R57). -/
def entryWf (e : BitVec 64) : Bool :=
  entryHigh e == 0 && recipeWf (entryRd e) &&
    (if entryIsCond e then recipeWf (entryRs e) && indexOk (entryTa e) && indexOk (entryTb e)
     else entryRs e == 0 && entryTa e == 0 && entryTb e == 0)

/-- A dispatch table for factor n is 256 * n * n well-formed entries (R58). -/
def tableWf (n : Nat) (table : List (BitVec 64)) : Bool :=
  table.length == 256 * (n * n) && table.all entryWf

/-! ## The decoder -/

/-- The opcode map of R54; every value not listed is reserved. DISPATCH takes its operand from PAT. -/
def opcodeMap (pat : BitVec 8) (op : Nat) : Option Instr :=
  match op with
  | 0x00 => some .nop
  | 0x01 => some .lutInit
  | 0x02 => some .lutDeinit
  | 0x03 => some .lookup
  | 0x04 => some .differs
  | 0x05 => some .classify
  | 0x06 => some (.dispatch pat)
  | 0x07 => some .pixel
  | 0x08 => some .magnify
  | 0x10 => some .mix31
  | 0x11 => some .mix211
  | 0x12 => some .mix71
  | 0x13 => some .mix277
  | 0x14 => some .mix53
  | 0x15 => some .mix421
  | 0x16 => some .mix611
  | 0x17 => some .mix233
  | 0x18 => some .mix1411
  | 0x19 => some .mix11
  | _ => none

/-- Decoding a command word: the three checks of R55 in their order. -/
def decodeCmd (v : BitVec 32) : Except Reject Instr :=
  if cmdHigh v ≠ 0 then .error (.illegalCmd v)
  else
    match opcodeMap (cmdPat v) (cmdOp v).toNat with
    | none => .error (.illegalCmd v)
    | some i => if cmdOp v ≠ 6 ∧ cmdPat v ≠ 0 then .error (.illegalCmd v) else .ok i

/-- The instruction of a recipe word that is well formed (R56, R93). -/
def recipeInstr (r : BitVec 16) : Option Instr :=
  match (recipeKind r).toNat with
  | 0 => some .recipeCopy
  | 1 => some (.recipeMix31 (recipeI1 r) (recipeI2 r))
  | 2 => some (.recipeMix211 (recipeI1 r) (recipeI2 r) (recipeI3 r))
  | 3 => some (.recipeMix71 (recipeI1 r) (recipeI2 r))
  | 4 => some (.recipeMix277 (recipeI1 r) (recipeI2 r) (recipeI3 r))
  | 5 => some (.recipeMix53 (recipeI1 r) (recipeI2 r))
  | 6 => some (.recipeMix421 (recipeI1 r) (recipeI2 r) (recipeI3 r))
  | 7 => some (.recipeMix611 (recipeI1 r) (recipeI2 r) (recipeI3 r))
  | 8 => some (.recipeMix233 (recipeI1 r) (recipeI2 r) (recipeI3 r))
  | 9 => some (.recipeMix1411 (recipeI1 r) (recipeI2 r) (recipeI3 r))
  | 10 => some (.recipeMix11 (recipeI1 r) (recipeI2 r))
  | _ => none

/-- Decoding a recipe word: a word that is not well formed is rejected (R56, R61). -/
def decodeRecipe (r : BitVec 16) : Except Reject Instr :=
  if recipeWf r then
    match recipeInstr r with
    | some i => .ok i
    | none => .error (.malformedRecipe r)
  else .error (.malformedRecipe r)

/-- Decoding a table entry: an entry that is not well formed is rejected (R57, R61). -/
def decodeEntry (e : BitVec 64) : Except Reject Instr :=
  if entryWf e then
    if entryIsCond e then .ok (.entryCond (entryRd e) (entryRs e) (entryTa e) (entryTb e))
    else .ok (.entryPlain (entryRd e))
  else .error (.malformedEntry e)

/-- Decoding a bus transaction (R59). The write of 2 to STATUS (index 0x02) is spelled clrfault (R60; DESIGN CHOICE,
log 18). DATA of a read is ignored (R61). -/
def decodeBus (t : BitVec 41) : Instr :=
  if busIsWrite t then
    if busIndex t = 2 ∧ busData t = 2 then .clrfault else .wr (busIndex t) (busData t)
  else .rd (busIndex t)

/-- The decoder of the four formats. -/
def decode (c : CodeWord) : Except Reject Instr :=
  match c with
  | .cmd v => decodeCmd v
  | .recipe r => decodeRecipe r
  | .entry e => decodeEntry e
  | .bus t => .ok (decodeBus t)

/-! ## The encoder -/

/-- The command word with operation OP and pattern PAT (R53). -/
def cmdWord (op pat : BitVec 8) : BitVec 32 := (0 : BitVec 16) ++ pat ++ op

/-- The recipe word with the given fields (R56). -/
def recipeWord (kind i1 i2 i3 : BitVec 4) : BitVec 16 := i3 ++ i2 ++ i1 ++ kind

/-- The plain entry of R57. -/
def plainEntry (rdWord : BitVec 16) : BitVec 64 := (0 : BitVec 48) ++ rdWord

/-- The conditional entry of R57. -/
def condEntry (ta tb : BitVec 4) (rdWord rsWord : BitVec 16) : BitVec 64 :=
  (0 : BitVec 23) ++ (1 : BitVec 1) ++ tb ++ ta ++ rsWord ++ rdWord

/-- A bus read (R59, R60). -/
def busRead (index : BitVec 8) : BitVec 41 := (0 : BitVec 1) ++ index ++ (0 : BitVec 32)

/-- A bus write (R59, R60). -/
def busWrite (index : BitVec 8) (data : Word) : BitVec 41 := (1 : BitVec 1) ++ index ++ data

/-- The code word of an instruction (R53 to R60). -/
def encode (i : Instr) : CodeWord :=
  match i with
  | .nop => .cmd (cmdWord 0x00 0)
  | .lutInit => .cmd (cmdWord 0x01 0)
  | .lutDeinit => .cmd (cmdWord 0x02 0)
  | .lookup => .cmd (cmdWord 0x03 0)
  | .differs => .cmd (cmdWord 0x04 0)
  | .classify => .cmd (cmdWord 0x05 0)
  | .dispatch pat => .cmd (cmdWord 0x06 pat)
  | .pixel => .cmd (cmdWord 0x07 0)
  | .magnify => .cmd (cmdWord 0x08 0)
  | .mix31 => .cmd (cmdWord 0x10 0)
  | .mix211 => .cmd (cmdWord 0x11 0)
  | .mix71 => .cmd (cmdWord 0x12 0)
  | .mix277 => .cmd (cmdWord 0x13 0)
  | .mix53 => .cmd (cmdWord 0x14 0)
  | .mix421 => .cmd (cmdWord 0x15 0)
  | .mix611 => .cmd (cmdWord 0x16 0)
  | .mix233 => .cmd (cmdWord 0x17 0)
  | .mix1411 => .cmd (cmdWord 0x18 0)
  | .mix11 => .cmd (cmdWord 0x19 0)
  | .recipeCopy => .recipe (recipeWord 0 0 0 0)
  | .recipeMix31 i1 i2 => .recipe (recipeWord 1 i1 i2 0)
  | .recipeMix211 i1 i2 i3 => .recipe (recipeWord 2 i1 i2 i3)
  | .recipeMix71 i1 i2 => .recipe (recipeWord 3 i1 i2 0)
  | .recipeMix277 i1 i2 i3 => .recipe (recipeWord 4 i1 i2 i3)
  | .recipeMix53 i1 i2 => .recipe (recipeWord 5 i1 i2 0)
  | .recipeMix421 i1 i2 i3 => .recipe (recipeWord 6 i1 i2 i3)
  | .recipeMix611 i1 i2 i3 => .recipe (recipeWord 7 i1 i2 i3)
  | .recipeMix233 i1 i2 i3 => .recipe (recipeWord 8 i1 i2 i3)
  | .recipeMix1411 i1 i2 i3 => .recipe (recipeWord 9 i1 i2 i3)
  | .recipeMix11 i1 i2 => .recipe (recipeWord 10 i1 i2 0)
  | .entryPlain r => .entry (plainEntry r)
  | .entryCond rdWord rsWord ta tb => .entry (condEntry ta tb rdWord rsWord)
  | .rd index => .bus (busRead index)
  | .wr index data => .bus (busWrite index data)
  | .clrfault => .bus (busWrite 2 2)

/-! ## The host's question to the decoder -/

/-- The code word of nbits bits whose value is w: 16 bits is a recipe, 32 a command word, 64 a table entry, and 41
(48 in whole bytes) a bus transaction. -/
def codeWordOf (nbits w : Nat) : Option CodeWord :=
  match nbits with
  | 16 => if w < 2 ^ 16 then some (.recipe (BitVec.ofNat 16 w)) else none
  | 32 => if w < 2 ^ 32 then some (.cmd (BitVec.ofNat 32 w)) else none
  | 64 => if w < 2 ^ 64 then some (.entry (BitVec.ofNat 64 w)) else none
  | 41 => if w < 2 ^ 41 then some (.bus (BitVec.ofNat 41 w)) else none
  | 48 => if w < 2 ^ 41 then some (.bus (BitVec.ofNat 41 w)) else none
  | _ => none

/-- The instruction the decoder reads from an opcode-table word of nbits bits. -/
def decodeTableWord (nbits w : Nat) : Option Instr :=
  match codeWordOf nbits w with
  | none => none
  | some c =>
    match decode c with
    | .ok i => some i
    | .error _ => none

end Sys2Proof
end

