-- ==== Sys2Proof/Config.lean ====
section
/-!
DEFINITION. The parameters of an instance of the core (00_scope.md R6) and the free values of the model: constants with
no body, of which nothing can be proved (logs 3 and 14).
-/

namespace Sys2Proof

/-- P_ALPHA_SHIFT: how alpha is taken from a packed colour (R6, R13, D6). -/
inductive AlphaShift where
  | arith
  | logical
deriving DecidableEq, Repr

/-- P_YUV_ARITH: the arithmetic of the YUV transform (R6, R62, D7). -/
inductive YuvArith where
  | exact
  | binary64
deriving DecidableEq, Repr

/-- P_UV_TRUNC: where U and V are truncated (R6, R62, D8). -/
inductive UvTrunc where
  | whole
  | chromaFirst
deriving DecidableEq, Repr

/-- P_F5_WEIGHTS: the weights of mixer function 5 (R6, R87, D5). -/
inductive F5Weights where
  | w521
  | w421
deriving DecidableEq, Repr

/-- P_BYTE_ORDER: how a byte-addressed host sees a pixel word (R6, R43, D19). -/
inductive ByteOrder where
  | little
  | big
deriving DecidableEq, Repr

/-- The parameters of R6, the constants of an instance. -/
structure Params where
  /-- P_TABLE3, the ROM T3: 256 * 9 entries (R35, R58). -/
  table3 : List (BitVec 64)
  /-- P_TABLE4, the ROM T4: 256 * 16 entries (R35, R58). -/
  table4 : List (BitVec 64)
  alphaShift : AlphaShift
  yuvArith : YuvArith
  uvTrunc : UvTrunc
  f5Weights : F5Weights
  /-- P_MEM_WORDS, 1 to 2^32 (R42). -/
  memWords : Nat
  byteOrder : ByteOrder
deriving DecidableEq, Repr

/-- Free values behind P_TABLE3, which the spec leaves OPEN (R6, D11; log 3). -/
opaque Config.openTable3 : Nat → BitVec 64
/-- Free values behind P_TABLE4, which the spec leaves OPEN (R6, D11; log 3). -/
opaque Config.openTable4 : Nat → BitVec 64
/-- Free value behind P_MEM_WORDS, which the spec leaves OPEN (R6, D19; log 3). -/
opaque Config.openMemWords : Nat
/-- Free value behind P_BYTE_ORDER, which the spec leaves OPEN (R6, D19; log 3). -/
opaque Config.openByteOrder : Bool

/-- Whether the n-th reset that cuts a MAGNIFY short leaves the word at an address of its destination extent new
(R128, I24; log 14). -/
opaque Config.cutTakesNew : Nat → Nat → Bool
/-- What the host reads when the n-th cutting reset meets a read in flight (R128, I25; log 14). -/
opaque Config.cutReadData : Nat → Word

end Sys2Proof
end

