-- ==== Sys2Proof/Machine/Chip.lean ====
section
/-!
DEFINITION. An instance of the core: parameters of 00_scope.md R6 together with the proof that they are legal, so that a core
with a dispatch table that is not well formed cannot be built (30_encoding.md R58, 93_implementation_defined.md I8), and the
instance that State.reset describes (logs 3, 4).
-/

namespace Sys2Proof

/-- Both tables are well formed, of 2304 and 4096 entries (R58). -/
def Params.tablesWf (p : Params) : Bool := tableWf 3 p.table3 && tableWf 4 p.table4

/-- P_MEM_WORDS is 1 to 2^32 (R6, R42). -/
def Params.memoryOk (p : Params) : Bool := decide (1 ≤ p.memWords) && decide (p.memWords ≤ 2 ^ 32)

/-- What R6 asks of the parameters. -/
def Params.wf (p : Params) : Bool := p.tablesWf && p.memoryOk

/-- An instance of the core. Its tables are well formed by construction: "no command can meet a malformed entry at run time"
(R58). -/
structure Chip where
  /-- The parameters of R6. -/
  params : Params
  /-- They are legal. -/
  legal : params.wf = true
deriving DecidableEq, Repr

/-- The instance with parameters p; none where they are not legal (R58, I8). -/
def Chip.ofParams (p : Params) : Option Chip := if h : p.wf = true then some ⟨p, h⟩ else none

/-! ## The instance at State.reset -/

/-- A free well-formed table: entry i is the free value where that is a well-formed entry, else COPY (R58; log 3). -/
def Config.freeTable (raw : Nat → BitVec 64) (n : Nat) : List (BitVec 64) :=
  (List.range (256 * (n * n))).map fun i => if entryWf (raw i) then raw i else 0

/-- The instance State.reset describes: the defaults of R6 where R6 gives one (log 4), free values where it gives none
(log 3). -/
def Config.params : Params where
  table3 := Config.freeTable Config.openTable3 3
  table4 := Config.freeTable Config.openTable4 4
  alphaShift := .arith
  yuvArith := .exact
  uvTrunc := .whole
  f5Weights := .w521
  memWords := Config.openMemWords % 2 ^ 32 + 1
  byteOrder := if Config.openByteOrder then .big else .little

/-- A free table is well formed, whatever the free values. -/
theorem Config.freeTable_wf (raw : Nat → BitVec 64) (n : Nat) : tableWf n (Config.freeTable raw n) = true := by
  simp only [tableWf, Config.freeTable, List.length_map, List.length_range, beq_self_eq_true, Bool.true_and,
    List.all_eq_true, List.mem_map, List.mem_range]
  rintro e ⟨i, -, rfl⟩
  split
  · assumption
  · decide

/-- The parameters of the instance at State.reset are legal. -/
theorem Config.params_wf : Config.params.wf = true := by
  have h : Config.openMemWords % 2 ^ 32 < 2 ^ 32 := Nat.mod_lt _ (by decide)
  simp only [Params.wf, Params.tablesWf, Params.memoryOk, Bool.and_eq_true, decide_eq_true_eq]
  refine ⟨⟨?_, ?_⟩, ?_, ?_⟩
  · simp only [Config.params, Config.freeTable_wf]
  · simp only [Config.params, Config.freeTable_wf]
  · exact Nat.le_add_left 1 (Config.openMemWords % 2 ^ 32)
  · exact h

/-- The instance State.reset describes. -/
def Config.chip : Chip := { params := Config.params, legal := Config.params_wf }

end Sys2Proof
end

