-- ==== Sys2Proof/Machine/State.lean ====
section
/-!
DEFINITION. The state of the core: everything 10_state.md R39 lists, the hidden state of R27 and R36, the pixel memory of
20_memory.md R42, the parameters of 00_scope.md R6, and the inputs the host and the platform drive.
-/

namespace Sys2Proof.Machine

/-- The model stops with a fault. The six architectural faults of R115 are NOT here: raising one is a next state (R116). -/
inductive Fault where
  /-- The host stores to a pixel-memory word that does not exist (R42: addresses 0 to P_MEM_WORDS - 1). Raised by the
  input store only. Safe: the model stops where the spec gives no effect (log 19). -/
  | noSuchWord (address : BitVec 32)
deriving DecidableEq, Repr

/-- The model gives no meaning. -/
inductive Refusal where
  /-- An instruction without a meaning, rejected by exec by name. No arm does. Safe. -/
  | notModelled (mnemonic : String)
  /-- Parameters with a dispatch table that is not well formed: R58 "A model refuses to instantiate the core with a table
  that is not well formed" (I8). Raised by instantiate only. Safe: there is no such core. -/
  | malformedTable
  /-- Parameters with P_MEM_WORDS outside 1 to 2^32 (R6, R42). Raised by instantiate only. Safe: there is no such core. -/
  | badMemorySize
  /-- A single recipe that is not well formed (R56, R61, I8), raised by the recipe rows and the input recipe. Safe (log 12). -/
  | malformedRecipe
  /-- A single table entry that is not well formed (R57, R61, I8), raised by the entry rows and the input entry. Safe (log 12). -/
  | malformedEntry
deriving DecidableEq, Repr

/-- The six faults of R115. -/
inductive FaultCode where
  | illegalCmd
  | lutNotReady
  | badReg
  | badGeometry
  | busError
  | bufferOverlap
deriving DecidableEq, Repr

/-- The registers of the map of R20. -/
inductive Reg where
  | caps | cmd | status | ctrl
  | thrY | thrU | thrV | thrA
  | opa | opb | opc | result
  | srcBase | srcLen | dstBase | dstLen | width | height
  | nb (i : Fin 9)
  | out (k : Fin 16)
deriving DecidableEq, Repr

/-- A 3 x 3 neighbourhood of packed colours, index 3 * row + column (R32). -/
abbrev Nbhd := Vector Word 9

/-- Pixel memory as bytes: word a is the four bytes at 4a to 4a + 3 (log 5), in one canonical form (Machine/Ops.lean). -/
abbrev Memory := List Host.Cell

/-- The effective thresholds (R27), hidden: Y and U pre-shifted in 48 bits, V and alpha unshifted. -/
structure EffThr where
  /-- TRY_EFF = THR_Y * 2^16. -/
  y : BitVec 48
  /-- TRU_EFF = THR_U * 2^8. -/
  u : BitVec 48
  /-- TRV_EFF = THR_V. -/
  v : Word
  /-- TRA_EFF = THR_A. -/
  a : Word
deriving DecidableEq, Repr

/-- MAGNIFY's internal latch (R36), hidden, and the resolver's loop variable (R95; log 9). -/
structure Latch where
  /-- Source column of the current pixel. -/
  x : Word
  /-- Source row of the current pixel. -/
  y : Word
  /-- The current neighbourhood w[0..8]. -/
  w : Nbhd
  /-- Its edge pattern. -/
  pattern : BitVec 8
  /-- Its outputs out[0..N^2-1]. -/
  out : Vector Word 16
  /-- The sub-pixel k the next table entry assigns (R95), the model's own field. -/
  sub : BitVec 4
deriving DecidableEq, Repr

/-- What the outside does to the core in one step (log 1). -/
inductive Input where
  /-- A host bus transaction (R41, R59). -/
  | bus (t : BitVec 41)
  /-- The reset input between transactions (R127, R128). -/
  | reset
  /-- A host bus transaction during which the reset input is asserted (R128). -/
  | cut (t : BitVec 41)
  /-- The host, owner of pixel memory, stores a word (R42). -/
  | store (address : BitVec 32) (value : Word)
  /-- The resolver meets this table entry: one turn of R95's loop (log 10). -/
  | entry (e : BitVec 64)
  /-- The resolver applies this recipe: R93 (log 10). -/
  | recipe (r : BitVec 16)
deriving DecidableEq, Repr

/-- The state of the core and of its interface. -/
structure State where
  /-- The instance: the constants of R6, T3 and T4 among them, and that they are legal (R35, R39, R58; log 2); no step
  changes it. -/
  chip : Chip
  /-- CTRL (R25). -/
  ctrl : Word
  /-- THR_Y (R26). -/
  thrY : Word
  /-- THR_U (R26). -/
  thrU : Word
  /-- THR_V (R26). -/
  thrV : Word
  /-- THR_A (R26). -/
  thrA : Word
  /-- OPA (R28). -/
  opa : Word
  /-- OPB (R28). -/
  opb : Word
  /-- OPC (R28). -/
  opc : Word
  /-- RESULT (R29). -/
  result : Word
  /-- SRC_BASE (R34). -/
  srcBase : Word
  /-- SRC_LEN (R34). -/
  srcLen : Word
  /-- DST_BASE (R34). -/
  dstBase : Word
  /-- DST_LEN (R34). -/
  dstLen : Word
  /-- WIDTH (R34). -/
  width : Word
  /-- HEIGHT (R34). -/
  height : Word
  /-- NB0 to NB8 (R32). -/
  nb : Nbhd
  /-- OUT0 to OUT15 (R33). -/
  out : Vector Word 16
  /-- LUT_VALID (R30). -/
  lutValid : Bool
  /-- STATUS.FAULT (R23). -/
  fault : Bool
  /-- STATUS.FAULT_CODE (R23). -/
  faultCode : BitVec 8
  /-- TRY_EFF, TRU_EFF, TRV_EFF, TRA_EFF (R27). -/
  eff : EffThr
  /-- MAGNIFY's latch (R36). -/
  latch : Latch
  /-- The pixel memory M (R42). -/
  mem : Memory
  /-- DATA of the response to the host's last read (R59, R112; log 13). -/
  lastRead : Word
  /-- What the outside does next, oldest first (log 1). -/
  inputs : List Input
  /-- How many cutting resets there have been: the index of their free values (R128; log 14). -/
  freeIx : Nat
deriving DecidableEq, Repr

/-- The parameters of the instance (R6). -/
abbrev State.cfg (s : State) : Params := s.chip.params

/-- The effective thresholds at reset: R127 gives them no value; DESIGN CHOICE 0 (log 8). -/
def EffThr.zero : EffThr := { y := 0, u := 0, v := 0, a := 0 }

/-- The latch at reset: R127 gives it no value; DESIGN CHOICE 0 (log 9). -/
def Latch.zero : Latch :=
  { x := 0, y := 0, w := Vector.replicate 9 0, pattern := 0, out := Vector.replicate 16 0, sub := 0 }

/-- The reset state of R127 and R20 for an instance, an empty memory list and no inputs. -/
def State.resetOf (c : Chip) : State where
  chip := c
  ctrl := 0
  thrY := 48
  thrU := 7
  thrV := 6
  thrA := 0
  opa := 0
  opb := 0
  opc := 0
  result := 0
  srcBase := 0
  srcLen := 0
  dstBase := 0
  dstLen := 0
  width := 0
  height := 0
  nb := Vector.replicate 9 0
  out := Vector.replicate 16 0
  lutValid := false
  fault := false
  faultCode := 0
  eff := EffThr.zero
  latch := Latch.zero
  mem := []
  lastRead := 0
  inputs := []
  freeIx := 0

/-- The machine right after reset (R127). -/
def State.reset : State := State.resetOf Config.chip

end Sys2Proof.Machine
end

