-- ==== Sys2Proof/Machine/Ops.lean ====
section
/-!
DEFINITION. The shared operations over memory and registers: bytes and words of pixel memory (20_memory.md R42 to R44),
raising and clearing a fault (60_exceptions.md R116, R118), running a command unless a fault is pending (R117), the reset
input (70_reset_and_hazards.md R127), the factor and its table (10_state.md R25, R35).
-/

namespace Sys2Proof.Machine

/-! ## Pixel memory -/

/-- What a byte address the list does not name reads as: 0 (DESIGN CHOICE, log 6). -/
def unlistedByte : BitVec 8 := 0

/-- The byte at an address. -/
def Memory.readByte (m : Memory) (a : Nat) : BitVec 8 :=
  match m with
  | [] => unlistedByte
  | c :: rest => if c.1 = a then c.2 else Memory.readByte rest a

/-- The memory with byte v at address a, in canonical form: a byte equal to what an unlisted address reads as is not
listed. -/
def Memory.writeByte (m : Memory) (a : Nat) (v : BitVec 8) : Memory :=
  match m with
  | [] => if v = unlistedByte then [] else [(a, v)]
  | c :: rest =>
    if a < c.1 then (if v = unlistedByte then c :: rest else (a, v) :: c :: rest)
    else if a = c.1 then (if v = unlistedByte then rest else (a, v) :: rest)
    else c :: Memory.writeByte rest a v

/-- The canonical form: addresses strictly rising, no byte equal to what an unlisted address reads as. -/
def Memory.wf (m : Memory) : Bool :=
  match m with
  | [] => true
  | c :: rest => decide (c.2 ≠ unlistedByte) && rest.all (fun d => decide (c.1 < d.1)) && Memory.wf rest

/-- Every listed byte lies in a memory of n words (R42). -/
def Memory.inBounds (m : Memory) (n : Nat) : Bool := m.all fun c => decide (c.1 < 4 * n)

/-- The byte address of byte lane j (bits 8j+7 to 8j) of word a, j in 0 to 3, under a byte order (R43; log 5). -/
def laneAddr (o : ByteOrder) (a j : Nat) : Nat :=
  match o with
  | .little => 4 * a + j
  | .big => 4 * a + (3 - j)

/-- Byte lane j of a word: bits 8j+7 to 8j. -/
def lane (v : Word) (j : Nat) : BitVec 8 := v.extractLsb' (8 * j) 8

/-- The word at word address a, from its four byte lanes. -/
def Memory.readWord (o : ByteOrder) (m : Memory) (a : Nat) : Word :=
  m.readByte (laneAddr o a 3) ++ m.readByte (laneAddr o a 2) ++ m.readByte (laneAddr o a 1) ++ m.readByte (laneAddr o a 0)

/-- The memory with word v at word address a. -/
def Memory.writeWord (o : ByteOrder) (m : Memory) (a : Nat) (v : Word) : Memory :=
  (((m.writeByte (laneAddr o a 0) (lane v 0)).writeByte (laneAddr o a 1) (lane v 1)).writeByte (laneAddr o a 2)
    (lane v 2)).writeByte (laneAddr o a 3) (lane v 3)

/-- MemRead(a, 1) (R11, R42). -/
def memRead (s : State) (a : Nat) : Word := s.mem.readWord s.cfg.byteOrder a

/-! ## Faults -/

/-- The code STATUS.FAULT_CODE holds after a fault (R115). -/
def faultNumber (c : FaultCode) : BitVec 8 :=
  match c with
  | .illegalCmd => 0x01
  | .lutNotReady => 0x02
  | .badReg => 0x03
  | .badGeometry => 0x04
  | .busError => 0x05
  | .bufferOverlap => 0x06

/-- Raising a fault (R116): the first code is kept, nothing else changes. The info argument of raise is recorded nowhere
(R115). -/
def raiseFault (c : FaultCode) (s : State) : State :=
  if s.fault then s else { s with fault := true, faultCode := faultNumber c }

/-- The W1C action of R24 and R118, the return from a fault: clears FAULT and FAULT_CODE and nothing else. -/
def clearFault (s : State) : State := { s with fault := false, faultCode := 0 }

/-- The outcome of a command or host access that ends in a fault (R116). -/
def faulted (c : FaultCode) (s : State) : Host.Outcome State Fault Refusal := .next (raiseFault c s)

/-- A command runs only while STATUS.FAULT = 0; else it is ignored and changes nothing (R113, R117; log 16). -/
def command (s : State) (run : Host.Outcome State Fault Refusal) : Host.Outcome State Fault Refusal :=
  if s.fault then .next s else run

/-- A command that uses the LUT raises LUT_NOT_READY while LUT_VALID = 0, before anything else (R68, R115). -/
def lutCommand (s : State) (run : Host.Outcome State Fault Refusal) : Host.Outcome State Fault Refusal :=
  command s (if s.lutValid then run else faulted .lutNotReady s)

/-! ## The factor, its table, and the effective thresholds -/

/-- CTRL.WRAP_X (R25). -/
def wrapX (s : State) : Bool := s.ctrl.getLsbD 0
/-- CTRL.WRAP_Y (R25). -/
def wrapY (s : State) : Bool := s.ctrl.getLsbD 1
/-- CTRL.FACTOR_SEL (R25). -/
def factorSel (s : State) : Bool := s.ctrl.getLsbD 2

/-- N = 3 + CTRL.FACTOR_SEL (R25). -/
def factor (s : State) : Nat := if factorSel s then 4 else 3

/-- The table of the current factor: T3 or T4 (R94). -/
def table (s : State) : List (BitVec 64) := if factorSel s then s.cfg.table4 else s.cfg.table3

/-- The values the thresholds latch: THR_Y * 2^16 and THR_U * 2^8 in 48 bits, so that neither wraps, and THR_V and THR_A
unshifted (R27). -/
def effOf (s : State) : EffThr where
  y := s.thrY ++ (0 : BitVec 16)
  u := (0 : BitVec 8) ++ s.thrU ++ (0 : BitVec 8)
  v := s.thrV
  a := s.thrA

/-- Latching the effective thresholds at the start of a command (R27). -/
def latchThr (s : State) : State := { s with eff := effOf s }

/-! ## Instantiation and the reset input -/

/-- Instantiating the core with parameters p gives it in its reset state; parameters with a table that is not well formed
are refused (R6, R58, I8). -/
def instantiate (p : Params) : Host.Outcome State Fault Refusal :=
  match Chip.ofParams p with
  | some c => .next (State.resetOf c)
  | none => .refused (if p.tablesWf then .badMemorySize else .malformedTable)

/-- Asserting reset: every register takes the value of R127; the parameters and pixel memory keep theirs. The host's
inputs, its last read and the counter of free values are not the core's (logs 1, 13, 14). -/
def resetInput (s : State) : State :=
  { State.resetOf s.chip with mem := s.mem, inputs := s.inputs, lastRead := s.lastRead, freeIx := s.freeIx }

end Sys2Proof.Machine
end

