-- ==== Sys2Proof/Machine/Flags.lean ====
section
/-!
DEFINITION. The only flag-like state of the core, STATUS (10_state.md R19, R23, R24), and the constant CAPS (R21). The
core has no condition codes (R19).
-/

namespace Sys2Proof.Machine

/-- The STATUS register: LUT_VALID in bit 0, FAULT in bit 1, FAULT_CODE in bits 15:8, every other bit 0 (R23). -/
def statusWord (s : State) : Word :=
  (0 : BitVec 16) ++ s.faultCode ++ (0 : BitVec 6) ++ BitVec.ofBool s.fault ++ BitVec.ofBool s.lutValid

/-- A host write of v to STATUS: bit 1 set clears the fault, every other bit is ignored (R24). -/
def writeStatus (v : Word) (s : State) : State := if v.getLsbD 1 then clearFault s else s

/-- CAPS, a constant of the instance (R21). -/
def capsWord (p : Params) : Word :=
  (0 : BitVec 8) ++ (1 : BitVec 8) ++ (0 : BitVec 4) ++ BitVec.ofBool (p.f5Weights == .w421) ++
    BitVec.ofBool (p.uvTrunc == .chromaFirst) ++ BitVec.ofBool (p.yuvArith == .binary64) ++
    BitVec.ofBool (p.alphaShift == .arith) ++ (0 : BitVec 5) ++ (0 : BitVec 1) ++ (1 : BitVec 1) ++ (1 : BitVec 1)

end Sys2Proof.Machine
end

