-- ==== Sys2Proof/Machine/Operands.lean ====
section
/-!
DEFINITION. The operand forms: channels of a packed colour (00_scope.md R13), neighbourhood indices (10_state.md R32), and
the register index space with its reads and writes (R20, R37, R38).
-/

namespace Sys2Proof.Machine

/-! ## Packed colours (R13) -/

/-- The alpha byte A(c) = c[31:24]. -/
def alphaByte (c : Word) : BitVec 8 := c.extractLsb' 24 8
/-- R(c) = c[23:16]. -/
def redByte (c : Word) : BitVec 8 := c.extractLsb' 16 8
/-- G(c) = c[15:8]. -/
def greenByte (c : Word) : BitVec 8 := c.extractLsb' 8 8
/-- Bl(c) = c[7:0]. -/
def blueByte (c : Word) : BitVec 8 := c.extractLsb' 0 8

/-- alpha(c), the alpha as extracted by shift: signed under ARITH, unsigned under LOGICAL (R13). -/
def alphaOf (p : Params) (c : Word) : Int :=
  match p.alphaShift with
  | .arith => (alphaByte c).toInt
  | .logical => ((alphaByte c).toNat : Int)

/-- The low 24 bits of a packed colour, the LUT index (R67, R68). -/
def rgbOf (c : Word) : Rgb := c.extractLsb' 0 24

/-! ## Neighbourhoods (R32) -/

/-- w[i]. Indices above 8 stand in no well-formed recipe or entry (R56, R57); the model's value for them is used by no
instruction that runs. -/
def nbAt (w : Nbhd) (i : Nat) : Word := w[i]?.getD 0

/-! ## The register index space (R20) -/

/-- The register at an index; none for a reserved index (R20, R38). -/
def regOf (i : BitVec 8) : Option Reg :=
  match i.toNat with
  | 0x00 => some .caps
  | 0x01 => some .cmd
  | 0x02 => some .status
  | 0x03 => some .ctrl
  | 0x04 => some .thrY
  | 0x05 => some .thrU
  | 0x06 => some .thrV
  | 0x07 => some .thrA
  | 0x08 => some .opa
  | 0x09 => some .opb
  | 0x0A => some .opc
  | 0x0B => some .result
  | 0x0C => some .srcBase
  | 0x0D => some .srcLen
  | 0x0E => some .dstBase
  | 0x0F => some .dstLen
  | 0x10 => some .width
  | 0x11 => some .height
  | n =>
    if h : 0x20 ≤ n ∧ n ≤ 0x28 then some (.nb ⟨n - 0x20, by omega⟩)
    else if h : 0x30 ≤ n ∧ n ≤ 0x3F then some (.out ⟨n - 0x30, by omega⟩)
    else none

/-- What a register reads as. CMD holds no state and reads 0 (R22, R37). -/
def readReg (s : State) (r : Reg) : Word :=
  match r with
  | .caps => capsWord s.cfg
  | .cmd => 0
  | .status => statusWord s
  | .ctrl => s.ctrl
  | .thrY => s.thrY
  | .thrU => s.thrU
  | .thrV => s.thrV
  | .thrA => s.thrA
  | .opa => s.opa
  | .opb => s.opb
  | .opc => s.opc
  | .result => s.result
  | .srcBase => s.srcBase
  | .srcLen => s.srcLen
  | .dstBase => s.dstBase
  | .dstLen => s.dstLen
  | .width => s.width
  | .height => s.height
  | .nb i => s.nb[i]
  | .out k => s.out[k]

/-- CTRL keeps only bits 2:0 of what is written (R25). -/
def ctrlMask : Word := 7

/-- The access of R20's table: true for a register the host may write with a plain store (RW). -/
def isRw (r : Reg) : Bool :=
  match r with
  | .caps | .cmd | .status | .result | .out _ => false
  | .ctrl | .thrY | .thrU | .thrV | .thrA | .opa | .opb | .opc | .srcBase | .srcLen | .dstBase | .dstLen | .width
  | .height | .nb _ => true

/-- A plain store to a register of access RW (R37); the other registers have no plain store and keep their value. -/
def storeReg (r : Reg) (v : Word) (s : State) : State :=
  match r with
  | .ctrl => { s with ctrl := v &&& ctrlMask }
  | .thrY => { s with thrY := v }
  | .thrU => { s with thrU := v }
  | .thrV => { s with thrV := v }
  | .thrA => { s with thrA := v }
  | .opa => { s with opa := v }
  | .opb => { s with opb := v }
  | .opc => { s with opc := v }
  | .srcBase => { s with srcBase := v }
  | .srcLen => { s with srcLen := v }
  | .dstBase => { s with dstBase := v }
  | .dstLen => { s with dstLen := v }
  | .width => { s with width := v }
  | .height => { s with height := v }
  | .nb i => { s with nb := s.nb.set i v }
  | .caps | .cmd | .status | .result | .out _ => s

end Sys2Proof.Machine
end

