-- ==== Sys2Proof/Machine/Lut.lean ====
section
/-!
DEFINITION. The colour-space cache (40_lut.md): the transform yuv of R62 under its four readings, and the commands
LUT_INIT, LUT_DEINIT, LOOKUP (R65 to R67). The LUT holds a fixed function of its index, computed on demand (R31; log 7).
-/

namespace Sys2Proof.Machine

/-! ## EXACT arithmetic (R62) -/

/-- Y under EXACT. -/
def exactY (r g b : Int) : Int := (299 * r + 587 * g + 114 * b) / 1000
/-- nU, the chroma numerator of U. -/
def numU (r g b : Int) : Int := -169 * r - 331 * g + 500 * b
/-- nV, the chroma numerator of V. -/
def numV (r g b : Int) : Int := 500 * r - 419 * g - 81 * b

/-- U or V under EXACT, from its chroma numerator. -/
def exactUV (t : UvTrunc) (num : Int) : Int :=
  match t with
  | .whole => (128000 + num).tdiv 1000
  | .chromaFirst => 128 + num.tdiv 1000

/-! ## BINARY64 arithmetic (R62)

Every binary64 value that R62 meets is a multiple of 2^-56, so it is held as the integer number of 2^-56 (log 15). -/

/-- Rounding a natural number of units to 53 significant bits, ties to even. -/
def roundNat53 (n : Nat) : Nat :=
  if n < 2 ^ 53 then n
  else
    let e := Nat.log2 n - 52
    let q := n >>> e
    let rest := n % 2 ^ e
    let half := 2 ^ (e - 1)
    let q' := if half < rest ∨ (rest = half ∧ q % 2 = 1) then q + 1 else q
    q' <<< e

/-- One IEEE 754 binary64 rounding, to nearest even, of an exact number of units. -/
def round64 (x : Int) : Int :=
  match x with
  | .ofNat n => (roundNat53 n : Int)
  | .negSucc n => -(roundNat53 (n + 1) : Int)

/-- The binary64 value nearest to 0.299, in units of 2^-56. -/
def lit299 : Int := 21545220617340452
/-- The binary64 value nearest to 0.587. -/
def lit587 : Int := 42297807700263696
/-- The binary64 value nearest to 0.114. -/
def lit114 : Int := 8214565720323785
/-- The binary64 value nearest to 0.169. -/
def lit169 : Int := 12177733392409822
/-- The binary64 value nearest to 0.331. -/
def lit331 : Int := 23851063626554148
/-- The binary64 value 0.500. -/
def lit500 : Int := 36028797018963968
/-- The binary64 value nearest to 0.419. -/
def lit419 : Int := 30192131901891804
/-- The binary64 value nearest to 0.081. -/
def lit081 : Int := 5836665117072163
/-- The binary64 value 128.0. -/
def lit128 : Int := 9223372036854775808

/-- One binary64 product of a literal and a channel value. -/
def mul64 (c k : Int) : Int := round64 (c * k)
/-- One binary64 sum. -/
def add64 (a b : Int) : Int := round64 (a + b)
/-- One binary64 difference. -/
def sub64 (a b : Int) : Int := round64 (a - b)
/-- toInt: truncation toward zero. -/
def toInt64 (a : Int) : Int := a.tdiv (2 ^ 56)

/-- Y under BINARY64. -/
def binaryY (r g b : Int) : Int := toInt64 (add64 (add64 (mul64 lit299 r) (mul64 lit587 g)) (mul64 lit114 b))

/-- U under BINARY64. -/
def binaryU (t : UvTrunc) (r g b : Int) : Int :=
  match t with
  | .whole =>
    toInt64 (add64 (sub64 (sub64 lit128 (mul64 lit169 r)) (mul64 lit331 g)) (mul64 lit500 b))
  | .chromaFirst =>
    toInt64 (add64 (sub64 (mul64 (-lit169) r) (mul64 lit331 g)) (mul64 lit500 b)) + 128

/-- V under BINARY64. -/
def binaryV (t : UvTrunc) (r g b : Int) : Int :=
  match t with
  | .whole =>
    toInt64 (sub64 (sub64 (add64 lit128 (mul64 lit500 r)) (mul64 lit419 g)) (mul64 lit081 b))
  | .chromaFirst =>
    toInt64 (sub64 (sub64 (mul64 lit500 r) (mul64 lit419 g)) (mul64 lit081 b)) + 128

/-! ## The transform -/

/-- Y of an RGB value as an unbounded integer (R62). -/
def lumaY (p : Params) (r g b : Int) : Int :=
  match p.yuvArith with
  | .exact => exactY r g b
  | .binary64 => binaryY r g b

/-- U of an RGB value as an unbounded integer (R62). -/
def chromaU (p : Params) (r g b : Int) : Int :=
  match p.yuvArith with
  | .exact => exactUV p.uvTrunc (numU r g b)
  | .binary64 => binaryU p.uvTrunc r g b

/-- V of an RGB value as an unbounded integer (R62). -/
def chromaV (p : Params) (r g b : Int) : Int :=
  match p.yuvArith with
  | .exact => exactUV p.uvTrunc (numV r g b)
  | .binary64 => binaryV p.uvTrunc r g b

/-- R of an RGB value, bits 23:16 (R62). -/
def rgbR (i : Rgb) : Int := ((i.extractLsb' 16 8).toNat : Int)
/-- G of an RGB value, bits 15:8. -/
def rgbG (i : Rgb) : Int := ((i.extractLsb' 8 8).toNat : Int)
/-- B of an RGB value, bits 7:0. -/
def rgbB (i : Rgb) : Int := ((i.extractLsb' 0 8).toNat : Int)

/-- yuv(i), the LUT entry of an RGB value: (Y << 16) | (U << 8) | V, each cut to 8 bits (R62). -/
def yuv (p : Params) (i : Rgb) : Rgb :=
  BitVec.ofInt 8 (lumaY p (rgbR i) (rgbG i) (rgbB i)) ++ BitVec.ofInt 8 (chromaU p (rgbR i) (rgbG i) (rgbB i)) ++
    BitVec.ofInt 8 (chromaV p (rgbR i) (rgbG i) (rgbB i))

/-! ## The commands -/

/-- LUT_INIT (R65): fills the LUT, whose contents are yuv, and sets LUT_VALID. -/
def execLutInit (s : State) : Host.Outcome State Fault Refusal := command s (.next { s with lutValid := true })

/-- LUT_DEINIT (R66): clears LUT_VALID. -/
def execLutDeinit (s : State) : Host.Outcome State Fault Refusal := command s (.next { s with lutValid := false })

/-- LOOKUP (R67): RESULT becomes the LUT entry of OPA[23:0], zero-extended. -/
def execLookup (s : State) : Host.Outcome State Fault Refusal :=
  lutCommand s (.next { s with result := (yuv s.cfg (rgbOf s.opa)).setWidth 32 })

end Sys2Proof.Machine
end

