-- ==== Sys2Proof/Machine/Classifier.lean ====
section
/-!
DEFINITION. The neighbour difference classifier (41_classifier.md): the predicate differs (R69), the edge pattern (R73,
R74), and the commands DIFFERS and CLASSIFY (R72, R75).
-/

namespace Sys2Proof.Machine

/-- Yq(q) = q[23:16] (R13). -/
def yByte (q : Rgb) : BitVec 8 := q.extractLsb' 16 8
/-- Uq(q) = q[15:8] (R13). -/
def uByte (q : Rgb) : BitVec 8 := q.extractLsb' 8 8
/-- Vq(q) = q[7:0] (R13). -/
def vByte (q : Rgb) : BitVec 8 := q.extractLsb' 0 8

/-- |a - b| of two naturals, on unbounded integers (R9). -/
def absDiff (a b : Nat) : Nat := ((a : Int) - (b : Int)).natAbs

/-- differs(c1, c2) under effective thresholds: Y and U compared in the pre-shifted byte position, V unshifted, alpha
extracted by a shift (R69). -/
def differs (p : Params) (e : EffThr) (c1 c2 : Word) : Bool :=
  let q1 := yuv p (rgbOf c1)
  let q2 := yuv p (rgbOf c2)
  let dY := absDiff ((yByte q1).toNat * 2 ^ 16) ((yByte q2).toNat * 2 ^ 16)
  let dU := absDiff ((uByte q1).toNat * 2 ^ 8) ((uByte q2).toNat * 2 ^ 8)
  let dV := absDiff (vByte q1).toNat (vByte q2).toNat
  let dA := (alphaOf p c1 - alphaOf p c2).natAbs
  decide (e.y.toNat < dY) || decide (e.u.toNat < dU) || decide (e.v.toNat < dV) || decide (e.a.toNat < dA)

/-- ORD: the neighbourhood index of pattern bit j, the eight indices other than the centre in increasing order (R73). -/
def ordIndex (j : Nat) : Nat := if j < 4 then j else j + 1

/-- Whether pattern bit j is set: the neighbour is not bit-identical to the centre and differs from it (R74). -/
def patternBit (p : Params) (e : EffThr) (w : Nbhd) (j : Nat) : Bool :=
  if nbAt w (ordIndex j) = nbAt w 4 then false else differs p e (nbAt w 4) (nbAt w (ordIndex j))

/-- classify(w): the edge pattern (R74). -/
def classify (p : Params) (e : EffThr) (w : Nbhd) : BitVec 8 :=
  (List.range 8).foldl (fun pattern j => if patternBit p e w j then pattern ||| (1#8 <<< j) else pattern) 0

/-- DIFFERS (R72): RESULT becomes 1 where OPA and OPB differ, else 0. -/
def execDiffers (s : State) : Host.Outcome State Fault Refusal :=
  lutCommand s
    (.next { latchThr s with result := (BitVec.ofBool (differs s.cfg (effOf s) s.opa s.opb)).setWidth 32 })

/-- CLASSIFY (R75): RESULT becomes the edge pattern of NB0 to NB8, zero-extended. -/
def execClassify (s : State) : Host.Outcome State Fault Refusal :=
  lutCommand s (.next { latchThr s with result := (classify s.cfg (effOf s) s.nb).setWidth 32 })

end Sys2Proof.Machine
end

