-- ==== Sys2Proof/Machine/Mixer.lean ====
section
/-!
DEFINITION. The colour mixing kernel (42_mixer.md): the ten functions of R76 in the normative lane form of R77, and the
ten MIX commands (R81 to R91).
-/

namespace Sys2Proof.Machine

/-- The ten functions of R76, in the order of their ids f = 0 to 9. -/
inductive MixFn where
  | m31 | m211 | m71 | m277 | m53 | m421 | m611 | m233 | m1411 | m11
deriving DecidableEq, Repr

/-- The mixer function with id f (R76). -/
def mixFnOf (f : Nat) : Option MixFn :=
  match f with
  | 0 => some .m31
  | 1 => some .m211
  | 2 => some .m71
  | 3 => some .m277
  | 4 => some .m53
  | 5 => some .m421
  | 6 => some .m611
  | 7 => some .m233
  | 8 => some .m1411
  | 9 => some .m11
  | _ => none

/-- Whether function f takes 2 inputs; else it takes 3 (R76). -/
def takesTwo (f : MixFn) : Bool :=
  match f with
  | .m31 | .m71 | .m53 | .m11 => true
  | .m211 | .m277 | .m421 | .m611 | .m233 | .m1411 => false

/-- The weights w1, w2, w3 of function f; the third is 0 for a 2-input function (R76, R87). -/
def weights (p : Params) (f : MixFn) : Nat × Nat × Nat :=
  match f with
  | .m31 => (3, 1, 0)
  | .m211 => (2, 1, 1)
  | .m71 => (7, 1, 0)
  | .m277 => (2, 7, 7)
  | .m53 => (5, 3, 0)
  | .m421 =>
    match p.f5Weights with
    | .w521 => (5, 2, 1)
    | .w421 => (4, 2, 1)
  | .m611 => (6, 1, 1)
  | .m233 => (2, 3, 3)
  | .m1411 => (14, 1, 1)
  | .m11 => (1, 1, 0)

/-- The shift s of function f (R76). -/
def mixShift (f : MixFn) : Nat :=
  match f with
  | .m31 => 2
  | .m211 => 2
  | .m71 => 3
  | .m277 => 4
  | .m53 => 3
  | .m421 => 3
  | .m611 => 3
  | .m233 => 3
  | .m1411 => 4
  | .m11 => 1

/-- The green lane mask. -/
def greenMask : Word := 0x0000FF00
/-- The combined red and blue lane mask. -/
def redBlueMask : Word := 0x00FF00FF
/-- The alpha lane mask. -/
def alphaMask : Word := 0xFF000000

/-- The alpha lane of one input, shifted before it is weighted: signed under ARITH, unsigned under LOGICAL (R77). -/
def alphaLane (p : Params) (c : Word) (s : Nat) : Int :=
  match p.alphaShift with
  | .arith => ((c &&& alphaMask).sshiftRight s).toInt
  | .logical => (((c &&& alphaMask) >>> s).toNat : Int)

/-- A lane of one input as an unbounded natural number. -/
def laneOf (c mask : Word) : Nat := (c &&& mask).toNat

/-- The lane form of R77 over three inputs with their weights: each lane on unbounded integers, recombined by OR. -/
def mixLanes (p : Params) (ws : Nat × Nat × Nat) (s : Nat) (c1 c2 c3 : Word) : Word :=
  let g := ws.1 * laneOf c1 greenMask + ws.2.1 * laneOf c2 greenMask + ws.2.2 * laneOf c3 greenMask
  let rb := ws.1 * laneOf c1 redBlueMask + ws.2.1 * laneOf c2 redBlueMask + ws.2.2 * laneOf c3 redBlueMask
  let a := (ws.1 : Int) * alphaLane p c1 s + (ws.2.1 : Int) * alphaLane p c2 s + (ws.2.2 : Int) * alphaLane p c3 s
  (BitVec.ofNat 32 (g / 2 ^ s) &&& greenMask) ||| (BitVec.ofNat 32 (rb / 2 ^ s) &&& redBlueMask) |||
    (BitVec.ofInt 32 a &&& alphaMask)

/-- mix_f of 2 inputs, with the shortcut that two bit-identical inputs return that value (R77). -/
def mixTwo (p : Params) (f : MixFn) (c1 c2 : Word) : Word :=
  if c1 = c2 then c1 else mixLanes p (weights p f) (mixShift f) c1 c2 0

/-- mix_f of 3 inputs (R77). -/
def mixThree (p : Params) (f : MixFn) (c1 c2 c3 : Word) : Word := mixLanes p (weights p f) (mixShift f) c1 c2 c3

/-- mix_f of the first n_f of three operands (R76, R77, R81, R93): a 2-input function does not read the third. -/
def mix (p : Params) (f : MixFn) (c1 c2 c3 : Word) : Word :=
  if takesTwo f then mixTwo p f c1 c2 else mixThree p f c1 c2 c3

/-- The common form of the ten MIX commands: RESULT becomes mix_f of OPA, OPB and, for 3 inputs, OPC (R81). -/
def mixCommand (f : MixFn) (s : State) : Host.Outcome State Fault Refusal :=
  command s (.next { s with result := mix s.cfg f s.opa s.opb s.opc })

/-- MIX_3_1 (R82). -/
def execMix31 (s : State) : Host.Outcome State Fault Refusal := mixCommand .m31 s
/-- MIX_2_1_1 (R83). -/
def execMix211 (s : State) : Host.Outcome State Fault Refusal := mixCommand .m211 s
/-- MIX_7_1 (R84). -/
def execMix71 (s : State) : Host.Outcome State Fault Refusal := mixCommand .m71 s
/-- MIX_2_7_7 (R85). -/
def execMix277 (s : State) : Host.Outcome State Fault Refusal := mixCommand .m277 s
/-- MIX_5_3 (R86). -/
def execMix53 (s : State) : Host.Outcome State Fault Refusal := mixCommand .m53 s
/-- MIX_4_2_1 (R87). -/
def execMix421 (s : State) : Host.Outcome State Fault Refusal := mixCommand .m421 s
/-- MIX_6_1_1 (R88). -/
def execMix611 (s : State) : Host.Outcome State Fault Refusal := mixCommand .m611 s
/-- MIX_2_3_3 (R89). -/
def execMix233 (s : State) : Host.Outcome State Fault Refusal := mixCommand .m233 s
/-- MIX_14_1_1 (R90). -/
def execMix1411 (s : State) : Host.Outcome State Fault Refusal := mixCommand .m1411 s
/-- MIX_1_1 (R91). -/
def execMix11 (s : State) : Host.Outcome State Fault Refusal := mixCommand .m11 s

end Sys2Proof.Machine
end

