-- ==== Sys2Proof/Machine/Resolver.lean ====
section
/-!
DEFINITION. The dispatch table's interpreter, the secondary-contrast resolver (43_dispatch.md): applying a recipe (R93),
resolving an entry (R94), dispatching a pattern (R95), the commands DISPATCH and PIXEL (R98, R99), and the recipe and
entry rows of the opcode table as single steps of the resolver over its latch (logs 10, 11, 12).
-/

namespace Sys2Proof.Machine

/-- The mixer function of a recipe kind 1 to 10: f = KIND - 1 (R56, R93). -/
def kindFn (k : BitVec 4) : Option MixFn := if k.toNat = 0 then none else mixFnOf (k.toNat - 1)

/-- apply(r, w): a recipe word over a neighbourhood gives one packed colour (R93). Kinds 11 to 15 stand in no well-formed
recipe (R56); they read as COPY here and no instruction that runs uses them (log 12). -/
def applyRecipe (p : Params) (r : BitVec 16) (w : Nbhd) : Word :=
  match kindFn (recipeKind r) with
  | none => nbAt w 4
  | some f =>
    mix p f (nbAt w (recipeI1 r).toNat) (nbAt w (recipeI2 r).toNat) (nbAt w (recipeI3 r).toNat)

/-- The recipe an entry selects: RD for a plain entry; RD or RS by the secondary test TA against TB (R94). -/
def resolveEntry (p : Params) (t : EffThr) (e : BitVec 64) (w : Nbhd) : BitVec 16 :=
  if entryIsCond e then
    if differs p t (nbAt w (entryTa e).toNat) (nbAt w (entryTb e).toNat) then entryRd e else entryRs e
  else entryRd e

/-- The entry of pattern q and sub-pixel k in a table for factor n, at address q * n * n + k (R58). -/
def entryAt (tab : List (BitVec 64)) (n : Nat) (q : BitVec 8) (k : Nat) : BitVec 64 :=
  tab[q.toNat * (n * n) + k]?.getD 0

/-- out[k] of dispatch(q, w): apply(resolve(T, N, q, k, w), w) (R95). -/
def subPixel (p : Params) (t : EffThr) (tab : List (BitVec 64)) (n : Nat) (q : BitVec 8) (w : Nbhd) (k : Nat) : Word :=
  applyRecipe p (resolveEntry p t (entryAt tab n q k) w) w

/-- Sixteen outputs whose first n * n are the colours of dispatch(q, w) and whose others keep their values (R33, R95). -/
def dispatchInto (p : Params) (t : EffThr) (tab : List (BitVec 64)) (n : Nat) (q : BitVec 8) (w : Nbhd)
    (old : Vector Word 16) : Vector Word 16 :=
  Vector.ofFn fun k : Fin 16 => if k.val < n * n then subPixel p t tab n q w k.val else old[k]

/-- DISPATCH (R98): OUT[0] to OUT[N^2-1] become the outputs of pattern PAT on NB0 to NB8. -/
def execDispatch (pat : BitVec 8) (s : State) : Host.Outcome State Fault Refusal :=
  lutCommand s
    (.next { latchThr s with out := dispatchInto s.cfg (effOf s) (table s) (factor s) pat s.nb s.out })

/-- PIXEL (R99): the classifier's pattern of NB0 to NB8 to RESULT, and its outputs to OUT[0] to OUT[N^2-1]. -/
def execPixel (s : State) : Host.Outcome State Fault Refusal :=
  lutCommand s
    (.next
      { latchThr s with
        result := (classify s.cfg (effOf s) s.nb).setWidth 32
        out := dispatchInto s.cfg (effOf s) (table s) (factor s) (classify s.cfg (effOf s) s.nb) s.nb s.out })

/-! ## Single steps of the resolver -/

/-- Writing the colour of the current sub-pixel into the resolver's outputs: out[k] of R95. -/
def putSub (s : State) (c : Word) : State :=
  { s with latch := { s.latch with out := s.latch.out.set s.latch.sub.toNat c s.latch.sub.isLt } }

/-- The resolver goes on to the next sub-pixel (the loop of R95). -/
def nextSub (s : State) : State := { s with latch := { s.latch with sub := s.latch.sub + 1 } }

/-- A recipe word applied to the latched neighbourhood: the colour of the current sub-pixel (R93, R95; log 10). A word
that is not well formed is refused (R56, I8; log 12). -/
def recipeStep (r : BitVec 16) (s : State) : Host.Outcome State Fault Refusal :=
  if recipeWf r then .next (putSub s (applyRecipe s.cfg r s.latch.w)) else .refused .malformedRecipe

/-- A table entry resolved and applied to the latched neighbourhood, one turn of R95's loop (R93 to R95; log 10). The
secondary test of a conditional entry reads the LUT, so it raises LUT_NOT_READY while LUT_VALID = 0 (R31; log 11). -/
def entryStep (e : BitVec 64) (s : State) : Host.Outcome State Fault Refusal :=
  if entryWf e then
    if entryIsCond e && !s.lutValid then faulted .lutNotReady s
    else .next (nextSub (putSub s (applyRecipe s.cfg (resolveEntry s.cfg s.eff e s.latch.w) s.latch.w)))
  else .refused .malformedEntry

/-- RECIPE_COPY (R93). -/
def execRecipeCopy (s : State) : Host.Outcome State Fault Refusal := recipeStep (recipeWord 0 0 0 0) s
/-- RECIPE_MIX_3_1 (R82, R93). -/
def execRecipeMix31 (i1 i2 : BitVec 4) (s : State) : Host.Outcome State Fault Refusal :=
  recipeStep (recipeWord 1 i1 i2 0) s
/-- RECIPE_MIX_2_1_1 (R83, R93). -/
def execRecipeMix211 (i1 i2 i3 : BitVec 4) (s : State) : Host.Outcome State Fault Refusal :=
  recipeStep (recipeWord 2 i1 i2 i3) s
/-- RECIPE_MIX_7_1 (R84, R93). -/
def execRecipeMix71 (i1 i2 : BitVec 4) (s : State) : Host.Outcome State Fault Refusal :=
  recipeStep (recipeWord 3 i1 i2 0) s
/-- RECIPE_MIX_2_7_7 (R85, R93). -/
def execRecipeMix277 (i1 i2 i3 : BitVec 4) (s : State) : Host.Outcome State Fault Refusal :=
  recipeStep (recipeWord 4 i1 i2 i3) s
/-- RECIPE_MIX_5_3 (R86, R93). -/
def execRecipeMix53 (i1 i2 : BitVec 4) (s : State) : Host.Outcome State Fault Refusal :=
  recipeStep (recipeWord 5 i1 i2 0) s
/-- RECIPE_MIX_4_2_1 (R87, R93). -/
def execRecipeMix421 (i1 i2 i3 : BitVec 4) (s : State) : Host.Outcome State Fault Refusal :=
  recipeStep (recipeWord 6 i1 i2 i3) s
/-- RECIPE_MIX_6_1_1 (R88, R93). -/
def execRecipeMix611 (i1 i2 i3 : BitVec 4) (s : State) : Host.Outcome State Fault Refusal :=
  recipeStep (recipeWord 7 i1 i2 i3) s
/-- RECIPE_MIX_2_3_3 (R89, R93). -/
def execRecipeMix233 (i1 i2 i3 : BitVec 4) (s : State) : Host.Outcome State Fault Refusal :=
  recipeStep (recipeWord 8 i1 i2 i3) s
/-- RECIPE_MIX_14_1_1 (R90, R93). -/
def execRecipeMix1411 (i1 i2 i3 : BitVec 4) (s : State) : Host.Outcome State Fault Refusal :=
  recipeStep (recipeWord 9 i1 i2 i3) s
/-- RECIPE_MIX_1_1 (R91, R93). -/
def execRecipeMix11 (i1 i2 : BitVec 4) (s : State) : Host.Outcome State Fault Refusal :=
  recipeStep (recipeWord 10 i1 i2 0) s

/-- ENTRY_PLAIN (R57, R94). -/
def execEntryPlain (rdWord : BitVec 16) (s : State) : Host.Outcome State Fault Refusal := entryStep (plainEntry rdWord) s
/-- ENTRY_COND (R57, R94). -/
def execEntryCond (rdWord rsWord : BitVec 16) (ta tb : BitVec 4) (s : State) : Host.Outcome State Fault Refusal :=
  entryStep (condEntry ta tb rdWord rsWord) s

end Sys2Proof.Machine
end

