-- ==== Sys2Proof/Machine/Driver.lean ====
section
/-!
DEFINITION. The magnification driver (44_driver.md): MAGNIFY's checks (R103), gathering a neighbourhood (R104), writing a
sub-pixel (R106), and the command (R102, R108).
-/

namespace Sys2Proof.Machine

/-- W, the source width in pixels (R102). -/
def widthOf (s : State) : Nat := s.width.toNat
/-- H, the source height in pixels (R102). -/
def heightOf (s : State) : Nat := s.height.toNat

/-- SE, the source extent in words (R103). -/
def sourceExtent (s : State) : Nat := widthOf s * heightOf s
/-- DE, the destination extent in words (R103). -/
def destExtent (s : State) : Nat := (widthOf s * factor s) * (heightOf s * factor s)

/-- The checks of R103 after the LUT check, in their order, on unbounded integers; none where MAGNIFY may run. An empty
image is not checked further. -/
def magnifyCheck (s : State) : Option FaultCode :=
  if sourceExtent s = 0 then none
  else if s.srcLen.toNat < sourceExtent s ∨ s.dstLen.toNat < destExtent s then some .badGeometry
  else if s.cfg.memWords < s.srcBase.toNat + sourceExtent s ∨ s.cfg.memWords < s.dstBase.toNat + destExtent s then
    some .busError
  else if s.srcBase.toNat < s.dstBase.toNat + destExtent s ∧ s.dstBase.toNat < s.srcBase.toNat + sourceExtent s then
    some .bufferOverlap
  else none

/-- The coordinate of a neighbour at c + d, d in -1, 0, 1, along a side of length n: in range, wrapped, or clamped to the
centre's own (R104, col and row). -/
def neighbour (wrap : Bool) (n c : Nat) (d : Int) : Nat :=
  if 0 ≤ (c : Int) + d ∧ (c : Int) + d < n then ((c : Int) + d).toNat
  else if wrap then (((c : Int) + d) % (n : Int)).toNat
  else c

/-- The word address of the neighbour (x + dx, y + dy) of source pixel (x, y) (R104). -/
def sourceAddr (s : State) (x y : Nat) (dx dy : Int) : Nat :=
  s.srcBase.toNat + neighbour (wrapY s) (heightOf s) y dy * widthOf s + neighbour (wrapX s) (widthOf s) x dx

/-- gather(x, y): the neighbourhood of source pixel (x, y), index 3 * (dy + 1) + (dx + 1) (R104). -/
def gather (s : State) (x y : Nat) : Nbhd :=
  let px := fun dx dy => memRead s (sourceAddr s x y dx dy)
  #v[px (-1) (-1), px 0 (-1), px 1 (-1), px (-1) 0, px 0 0, px 1 0, px (-1) 1, px 0 1, px 1 1]

/-- The word address of sub-pixel k of source pixel (x, y): column x * N + sx, row y * N + sy of the destination (R92,
R106). -/
def destAddr (s : State) (x y k : Nat) : Nat :=
  s.dstBase.toNat + (y * factor s + k / factor s) * (widthOf s * factor s) + (x * factor s + k % factor s)

/-- put(x, y, k, v): MemWrite of one sub-pixel (R106). -/
def putPixel (s : State) (x y k : Nat) (v : Word) (m : Memory) : Memory :=
  m.writeWord s.cfg.byteOrder (destAddr s x y k) v

/-- p, the edge pattern of source pixel (x, y) under the latched thresholds (R102). -/
def pixelPattern (s : State) (x y : Nat) : BitVec 8 := classify s.cfg s.eff (gather s x y)

/-- out, the outputs of source pixel (x, y) (R102). -/
def pixelOut (s : State) (x y : Nat) : Vector Word 16 :=
  dispatchInto s.cfg s.eff (table s) (factor s) (pixelPattern s x y) (gather s x y) s.latch.out

/-- The latch while MAGNIFY is at source pixel (x, y) (R36; log 9). -/
def pixelLatch (s : State) (x y : Nat) : Latch where
  x := BitVec.ofNat 32 x
  y := BitVec.ofNat 32 y
  w := gather s x y
  pattern := pixelPattern s x y
  out := pixelOut s x y
  sub := BitVec.ofNat 4 (factor s * factor s)

/-- The memory after the N * N puts of source pixel (x, y), k rising (R102, R106). -/
def pixelMemory (s : State) (x y : Nat) : Memory :=
  (List.range (factor s * factor s)).foldl (fun m k => putPixel s x y k ((pixelOut s x y)[k]?.getD 0) m) s.mem

/-- What MAGNIFY does for source pixel (x, y): gather, classify, dispatch, write the N * N sub-pixels (R102). Its
neighbourhood, pattern and outputs pass through the latch (R36). -/
def magnifyPixel (s : State) (x y : Nat) : State :=
  { s with latch := pixelLatch s x y, mem := pixelMemory s x y }

/-- One source row, left to right (R102, R107). -/
def magnifyRow (s : State) (y : Nat) : State := (List.range (widthOf s)).foldl (fun u x => magnifyPixel u x y) s

/-- The whole image, source rows top to bottom (R102, R107). -/
def magnifyImage (s : State) : State := (List.range (heightOf s)).foldl (fun u y => magnifyRow u y) s

/-- MAGNIFY (R102, R103, R108). With W = 0 or H = 0 it ends after the LUT check and changes nothing. -/
def execMagnify (s : State) : Host.Outcome State Fault Refusal :=
  lutCommand s
    (match magnifyCheck s with
     | some c => faulted c s
     | none =>
       if sourceExtent s = 0 then .next s
       else .next (magnifyImage (latchThr s)))

end Sys2Proof.Machine
end

