-- ==== Sys2Proof/Machine/Control.lean ====
section
/-!
DEFINITION. Control and host operations (45_control.md): NOP (R110), the host's write and read of a register (R111, R112),
command sequencing (R113) and clrfault (R118).
-/

namespace Sys2Proof.Machine

/-- NOP (R110). -/
def execNop (s : State) : Host.Outcome State Fault Refusal := command s (.next s)

/-- execute OP of R113 for a decoded command word. The rows that are no command words decode from none (R54); were one
given, it would be a reserved command. -/
def runCommand (i : Instr) (s : State) : Host.Outcome State Fault Refusal :=
  match i with
  | .nop => execNop s
  | .lutInit => execLutInit s
  | .lutDeinit => execLutDeinit s
  | .lookup => execLookup s
  | .differs => execDiffers s
  | .classify => execClassify s
  | .dispatch pat => execDispatch pat s
  | .pixel => execPixel s
  | .magnify => execMagnify s
  | .mix31 => execMix31 s
  | .mix211 => execMix211 s
  | .mix71 => execMix71 s
  | .mix277 => execMix277 s
  | .mix53 => execMix53 s
  | .mix421 => execMix421 s
  | .mix611 => execMix611 s
  | .mix233 => execMix233 s
  | .mix1411 => execMix1411 s
  | .mix11 => execMix11 s
  | .recipeCopy | .recipeMix31 _ _ | .recipeMix211 _ _ _ | .recipeMix71 _ _ | .recipeMix277 _ _ _ | .recipeMix53 _ _
  | .recipeMix421 _ _ _ | .recipeMix611 _ _ _ | .recipeMix233 _ _ _ | .recipeMix1411 _ _ _ | .recipeMix11 _ _
  | .entryPlain _ | .entryCond _ _ _ _ | .rd _ | .wr _ _ | .clrfault => faulted .illegalCmd s

/-- A host write of v to CMD: ignored while FAULT = 1; else decoded, which may raise ILLEGAL_CMD, and executed (R22, R113,
R117). -/
def writeCmd (v : Word) (s : State) : Host.Outcome State Fault Refusal :=
  command s
    (match decodeCmd v with
     | .error _ => faulted .illegalCmd s
     | .ok i => runCommand i s)

/-- wr: a host write of v to the register at an index (R37, R38, R111). -/
def execWr (index : BitVec 8) (v : Word) (s : State) : Host.Outcome State Fault Refusal :=
  match regOf index with
  | none => faulted .badReg s
  | some .cmd => writeCmd v s
  | some .status => .next (writeStatus v s)
  | some r => if isRw r then .next (storeReg r v s) else faulted .badReg s

/-- The response of a read: lastRead holds the value returned (R59, R112; log 13). -/
def respond (v : Word) (s : State) : State := { s with lastRead := v }

/-- rd: a host read of the register at an index; a reserved index and CMD return 0 and raise BAD_REG (R37, R38, R112). -/
def execRd (index : BitVec 8) (s : State) : Host.Outcome State Fault Refusal :=
  match regOf index with
  | none => .next (respond 0 (raiseFault .badReg s))
  | some .cmd => .next (respond 0 (raiseFault .badReg s))
  | some r => .next (respond (readReg s r) s)

/-- clrfault: the write of 2 to STATUS (R60, R118). -/
def execClrfault (s : State) : Host.Outcome State Fault Refusal := .next (writeStatus 2 s)

end Sys2Proof.Machine
end

