-- ==== Sys2Proof/Machine/Dispatch.lean ====
section
/-! DEFINITION. exec: one arm per constructor of Instr, each one direct call of its meaning. -/

namespace Sys2Proof.Machine

def exec (i : Instr) (s : State) : Host.Outcome State Fault Refusal :=
  match i with
  -- cmd32: 30_encoding.md R54
  | .nop => Sys2Proof.Machine.execNop s
  | .lutInit => Sys2Proof.Machine.execLutInit s
  | .lutDeinit => Sys2Proof.Machine.execLutDeinit s
  | .lookup => Sys2Proof.Machine.execLookup s
  | .differs => Sys2Proof.Machine.execDiffers s
  | .classify => Sys2Proof.Machine.execClassify s
  | .dispatch pat => Sys2Proof.Machine.execDispatch pat s
  | .pixel => Sys2Proof.Machine.execPixel s
  | .magnify => Sys2Proof.Machine.execMagnify s
  | .mix31 => Sys2Proof.Machine.execMix31 s
  | .mix211 => Sys2Proof.Machine.execMix211 s
  | .mix71 => Sys2Proof.Machine.execMix71 s
  | .mix277 => Sys2Proof.Machine.execMix277 s
  | .mix53 => Sys2Proof.Machine.execMix53 s
  | .mix421 => Sys2Proof.Machine.execMix421 s
  | .mix611 => Sys2Proof.Machine.execMix611 s
  | .mix233 => Sys2Proof.Machine.execMix233 s
  | .mix1411 => Sys2Proof.Machine.execMix1411 s
  | .mix11 => Sys2Proof.Machine.execMix11 s
  -- recipe16: 30_encoding.md R56
  | .recipeCopy => Sys2Proof.Machine.execRecipeCopy s
  | .recipeMix31 i1 i2 => Sys2Proof.Machine.execRecipeMix31 i1 i2 s
  | .recipeMix211 i1 i2 i3 => Sys2Proof.Machine.execRecipeMix211 i1 i2 i3 s
  | .recipeMix71 i1 i2 => Sys2Proof.Machine.execRecipeMix71 i1 i2 s
  | .recipeMix277 i1 i2 i3 => Sys2Proof.Machine.execRecipeMix277 i1 i2 i3 s
  | .recipeMix53 i1 i2 => Sys2Proof.Machine.execRecipeMix53 i1 i2 s
  | .recipeMix421 i1 i2 i3 => Sys2Proof.Machine.execRecipeMix421 i1 i2 i3 s
  | .recipeMix611 i1 i2 i3 => Sys2Proof.Machine.execRecipeMix611 i1 i2 i3 s
  | .recipeMix233 i1 i2 i3 => Sys2Proof.Machine.execRecipeMix233 i1 i2 i3 s
  | .recipeMix1411 i1 i2 i3 => Sys2Proof.Machine.execRecipeMix1411 i1 i2 i3 s
  | .recipeMix11 i1 i2 => Sys2Proof.Machine.execRecipeMix11 i1 i2 s
  -- entry64: 30_encoding.md R57
  | .entryPlain rdWord => Sys2Proof.Machine.execEntryPlain rdWord s
  | .entryCond rdWord rsWord ta tb => Sys2Proof.Machine.execEntryCond rdWord rsWord ta tb s
  -- bus41: 30_encoding.md R59
  | .rd index => Sys2Proof.Machine.execRd index s
  | .wr index data => Sys2Proof.Machine.execWr index data s
  | .clrfault => Sys2Proof.Machine.execClrfault s

end Sys2Proof.Machine
end

