-- ==== Sys2Proof/Machine/Inputs.lean ====
section
/-!
DEFINITION. What one input does to the core: a bus transaction (30_encoding.md R59, 45_control.md R111 to R113), the reset
input between and during transactions (70_reset_and_hazards.md R127, R128), a host store to pixel memory (20_memory.md
R42), and the two single steps of the resolver (logs 1, 10).
-/

namespace Sys2Proof.Machine

/-- One host bus transaction, run to completion (R16, R41). -/
def runBus (t : BitVec 41) (s : State) : Host.Outcome State Fault Refusal := exec (decodeBus t) s

/-- Whether a transaction starts a MAGNIFY that writes its destination (R102, R103, R113). -/
def startsMagnify (t : BitVec 41) (s : State) : Bool :=
  decide (decodeBus t = .wr 0x01 0x00000008) && !s.fault && s.lutValid && (magnifyCheck s == none)

/-- The word addresses of MAGNIFY's destination extent (R103). -/
def destAddrs (s : State) : List Nat := (List.range (destExtent s)).map fun i => s.dstBase.toNat + i

/-- Pixel memory when reset cuts a MAGNIFY short: each word of the destination extent is old or new by a free value, no
other word changes (R128, I24; log 14). done is the memory the whole MAGNIFY leaves. -/
def cutMemory (s : State) (done : Memory) : Memory :=
  (destAddrs s).foldl
    (fun m a =>
      if Config.cutTakesNew s.freeIx a then m.writeWord s.cfg.byteOrder a (done.readWord s.cfg.byteOrder a) else m)
    s.mem

/-- What a cut transaction leaves: the reset state, the memory given, and for a read a response with a free value (R128,
I25; log 14). -/
def afterCut (t : BitVec 41) (s : State) (m : Memory) : State :=
  { resetInput s with
    mem := m
    lastRead := if busIsWrite t then s.lastRead else Config.cutReadData s.freeIx
    freeIx := s.freeIx + 1 }

/-- Reset asserted while a transaction runs (R128). -/
def runCut (t : BitVec 41) (s : State) : Host.Outcome State Fault Refusal :=
  match runBus t s with
  | .next u => .next (afterCut t s (if startsMagnify t s then cutMemory s u.mem else s.mem))
  | .fault r => .fault r
  | .refused r => .refused r

/-- The host stores a word of its pixel memory (R42). A word that does not exist is a fault of the model (log 19). -/
def runStore (a : BitVec 32) (v : Word) (s : State) : Host.Outcome State Fault Refusal :=
  if a.toNat < s.cfg.memWords then .next { s with mem := s.mem.writeWord s.cfg.byteOrder a.toNat v }
  else .fault (.noSuchWord a)

/-- One table entry met by the resolver (R57, R94; log 10). -/
def runEntry (e : BitVec 64) (s : State) : Host.Outcome State Fault Refusal :=
  match decodeEntry e with
  | .ok i => exec i s
  | .error _ => .refused .malformedEntry

/-- One recipe met by the resolver (R56, R93; log 10). -/
def runRecipe (r : BitVec 16) (s : State) : Host.Outcome State Fault Refusal :=
  match decodeRecipe r with
  | .ok i => exec i s
  | .error _ => .refused .malformedRecipe

/-- What one input does. -/
def runInput (i : Input) (s : State) : Host.Outcome State Fault Refusal :=
  match i with
  | .bus t => runBus t s
  | .reset => .next (resetInput s)
  | .cut t => runCut t s
  | .store a v => runStore a v s
  | .entry e => runEntry e s
  | .recipe r => runRecipe r s

/-- The oldest input is taken and acts; with none pending the core is idle and holds its state (R126; log 1). -/
def takeInput (s : State) : Host.Outcome State Fault Refusal :=
  match s.inputs with
  | [] => .next s
  | i :: rest => runInput i { s with inputs := rest }

/-- The input that presents a table word of nbits bits to the core: a command word is written to CMD (index 0x01). -/
def inputOf (nbits w : Nat) : Input :=
  match nbits with
  | 16 => .recipe (BitVec.ofNat 16 w)
  | 32 => .bus (busWrite 0x01 (BitVec.ofNat 32 w))
  | 64 => .entry (BitVec.ofNat 64 w)
  | _ => .bus (BitVec.ofNat 41 w)

end Sys2Proof.Machine
end

