-- ==== Sys2Proof/Machine/Step.lean ====
section
/-! DEFINITION. One step of the machine: one input of the host or the platform (70_reset_and_hazards.md R132; log 1). -/

namespace Sys2Proof.Machine

/-- One step: the oldest input acts on the core. -/
def step (s : State) : Host.Outcome State Fault Refusal := takeInput s

/-- The state with the instruction whose nbits bits are w presented as the next input (log 1). -/
def State.withFetchWord (s : State) (nbits w : Nat) : State := { s with inputs := inputOf nbits w :: s.inputs }

end Sys2Proof.Machine
end

