-- ==== Sys2Proof/WellFormed.lean ====
section
/-!
DEFINITION. Which instructions are well formed: the ones an encoding of 30_encoding.md stands for. Operands bounded by
their field widths need no check; neighbourhood indices are 0 to 8 (R56, R57), the recipe operands of an entry are
well-formed recipe words (R57), and the write of 2 to STATUS is spelled clrfault (R60; log 18).
-/

namespace Sys2Proof

/-- The instruction is well formed. -/
def Instr.wf (i : Instr) : Bool :=
  match i with
  | .nop => true
  | .lutInit => true
  | .lutDeinit => true
  | .lookup => true
  | .differs => true
  | .classify => true
  | .dispatch _ => true
  | .pixel => true
  | .magnify => true
  | .mix31 => true
  | .mix211 => true
  | .mix71 => true
  | .mix277 => true
  | .mix53 => true
  | .mix421 => true
  | .mix611 => true
  | .mix233 => true
  | .mix1411 => true
  | .mix11 => true
  | .recipeCopy => true
  | .recipeMix31 i1 i2 => indexOk i1 && indexOk i2
  | .recipeMix211 i1 i2 i3 => indexOk i1 && indexOk i2 && indexOk i3
  | .recipeMix71 i1 i2 => indexOk i1 && indexOk i2
  | .recipeMix277 i1 i2 i3 => indexOk i1 && indexOk i2 && indexOk i3
  | .recipeMix53 i1 i2 => indexOk i1 && indexOk i2
  | .recipeMix421 i1 i2 i3 => indexOk i1 && indexOk i2 && indexOk i3
  | .recipeMix611 i1 i2 i3 => indexOk i1 && indexOk i2 && indexOk i3
  | .recipeMix233 i1 i2 i3 => indexOk i1 && indexOk i2 && indexOk i3
  | .recipeMix1411 i1 i2 i3 => indexOk i1 && indexOk i2 && indexOk i3
  | .recipeMix11 i1 i2 => indexOk i1 && indexOk i2
  | .entryPlain r => recipeWf r
  | .entryCond rdWord rsWord ta tb => recipeWf rdWord && recipeWf rsWord && indexOk ta && indexOk tb
  | .rd _ => true
  | .wr index data => !(index == 2 && data == 2)
  | .clrfault => true

end Sys2Proof
end

