-- ==== Sys2Proof/Safety.lean ====
section
/-!
DEFINITION. The terms the statements use: the invariant of the state, the reset values of 70_reset_and_hazards.md R127, the
closed form of the mixer (42_mixer.md R78), entries run one after another, and the commands that write RESULT.
-/

namespace Sys2Proof.Machine

/-- What every reachable state satisfies: legal parameters (R6, R58; the type of State.chip gives it of every state); pixel
memory in canonical form and inside its P_MEM_WORDS words (R42); CTRL[31:3] zero (R25); FAULT_CODE 0 while FAULT = 0 and a
code of R115 while FAULT = 1 (R23). -/
def State.Inv (s : State) : Prop :=
  s.cfg.wf = true ∧ s.mem.wf = true ∧ s.mem.inBounds s.cfg.memWords = true ∧ s.ctrl.toNat < 8 ∧
    (s.fault = false → s.faultCode = 0) ∧ (s.fault = true → 1 ≤ s.faultCode.toNat ∧ s.faultCode.toNat ≤ 6)

/-- The registers hold the values R127 states for reset. -/
def State.AtReset (s : State) : Prop :=
  s.ctrl = 0 ∧ s.thrY = 48 ∧ s.thrU = 7 ∧ s.thrV = 6 ∧ s.thrA = 0 ∧ s.opa = 0 ∧ s.opb = 0 ∧ s.opc = 0 ∧ s.result = 0 ∧
    s.srcBase = 0 ∧ s.srcLen = 0 ∧ s.dstBase = 0 ∧ s.dstLen = 0 ∧ s.width = 0 ∧ s.height = 0 ∧
    (∀ i : Fin 9, s.nb[i] = 0) ∧ (∀ k : Fin 16, s.out[k] = 0) ∧
    s.lutValid = false ∧ s.fault = false ∧ s.faultCode = 0

/-- One channel of R78: the floor of the weighted sum over 2^sh. -/
def closedChannel (w1 w2 w3 sh : Nat) (x1 x2 x3 : BitVec 8) : BitVec 8 :=
  BitVec.ofNat 8 ((w1 * x1.toNat + w2 * x2.toNat + w3 * x3.toNat) / 2 ^ sh)

/-- The alpha channel of R78: the floor of the weighted sum of alpha() over 2^sh, modulo 256. -/
def closedAlpha (p : Params) (w1 w2 w3 sh : Nat) (c1 c2 c3 : Word) : BitVec 8 :=
  BitVec.ofInt 8
    (((w1 : Int) * alphaOf p c1 + (w2 : Int) * alphaOf p c2 + (w3 : Int) * alphaOf p c3) / ((2 ^ sh : Nat) : Int))

/-- The closed form of a mixer function with weights w1, w2, w3 and shift sh (R78); w3 = 0 for two inputs. -/
def closedMix (p : Params) (w1 w2 w3 sh : Nat) (c1 c2 c3 : Word) : Word :=
  closedAlpha p w1 w2 w3 sh c1 c2 c3 ++ closedChannel w1 w2 w3 sh (redByte c1) (redByte c2) (redByte c3) ++
    closedChannel w1 w2 w3 sh (greenByte c1) (greenByte c2) (greenByte c3) ++
    closedChannel w1 w2 w3 sh (blueByte c1) (blueByte c2) (blueByte c3)

/-- Table entries met by the resolver one after another. -/
def runEntries : List (BitVec 64) → State → Host.Outcome State Fault Refusal
  | [], s => .next s
  | e :: rest, s =>
    match runEntry e s with
    | .next t => runEntries rest t
    | .fault r => .fault r
    | .refused r => .refused r

/-- The commands that write RESULT (R29). -/
def writesResult (i : Instr) : Bool :=
  match i with
  | .lookup | .differs | .classify | .pixel | .mix31 | .mix211 | .mix71 | .mix277 | .mix53 | .mix421 | .mix611 | .mix233
  | .mix1411 | .mix11 => true
  | .nop | .lutInit | .lutDeinit | .dispatch _ | .magnify | .recipeCopy | .recipeMix31 _ _ | .recipeMix211 _ _ _
  | .recipeMix71 _ _ | .recipeMix277 _ _ _ | .recipeMix53 _ _ | .recipeMix421 _ _ _ | .recipeMix611 _ _ _
  | .recipeMix233 _ _ _ | .recipeMix1411 _ _ _ | .recipeMix11 _ _ | .entryPlain _ | .entryCond _ _ _ _ | .rd _ | .wr _ _
  | .clrfault => false

/-- The commands that write OUT (R33). -/
def writesOut (i : Instr) : Bool :=
  match i with
  | .dispatch _ | .pixel => true
  | .nop | .lutInit | .lutDeinit | .lookup | .differs | .classify | .magnify | .mix31 | .mix211 | .mix71 | .mix277 | .mix53
  | .mix421 | .mix611 | .mix233 | .mix1411 | .mix11 | .recipeCopy | .recipeMix31 _ _ | .recipeMix211 _ _ _
  | .recipeMix71 _ _ | .recipeMix277 _ _ _ | .recipeMix53 _ _ | .recipeMix421 _ _ _ | .recipeMix611 _ _ _
  | .recipeMix233 _ _ _ | .recipeMix1411 _ _ _ | .recipeMix11 _ _ | .entryPlain _ | .entryCond _ _ _ _ | .rd _ | .wr _ _
  | .clrfault => false

/-- The instruction is a command of the given kind, or the CMD write of a word that decodes to one. -/
def isCommandOf (kind : Instr → Bool) (i : Instr) : Prop :=
  kind i = true ∨ ∃ v j, i = .wr 0x01 v ∧ decodeCmd v = .ok j ∧ kind j = true

end Sys2Proof.Machine
end

