-- ==== Sys2Proof/Certificates/Slice0/Obligations.lean ====
section
/-! DEFINITION. The statements for the provers, written from the numbered rules of spec/. -/

open Sys2Proof Sys2Proof.Machine

/-! ## Encoding (30_encoding.md) -/

/-- R53 to R59: no bit of an encoding is dropped; every well-formed instruction of every format. -/
def Obligations.DecodeOfEncodeIsTheInstruction : Prop := ∀ i : Instr, i.wf = true → decode (encode i) = .ok i

/-- R53 to R61: what decodes is a well-formed instruction and encodes back to the same word; of a bus read, to the one with
DATA 0 (R61: the DATA of a read is ignored). -/
def Obligations.DecodedWordsAreWellFormedAndEncodeBack : Prop :=
  (∀ v i, decode (.cmd v) = .ok i → i.wf = true ∧ encode i = .cmd v) ∧
  (∀ r i, decode (.recipe r) = .ok i → i.wf = true ∧ encode i = .recipe r) ∧
  (∀ e i, decode (.entry e) = .ok i → i.wf = true ∧ encode i = .entry e) ∧
  (∀ t i, decode (.bus t) = .ok i →
    i.wf = true ∧ (busIsWrite t = true → encode i = .bus t) ∧ (busIsWrite t = false → encode i = .bus (busRead (busIndex t))))

/-- Words written out in 95_test_vectors.md V7.3, V6.4 and section 0 decode to what they stand for. -/
def Obligations.SpecWordsDecodeAsWritten : Prop :=
  decodeTableWord 32 0x00000003 = some .lookup ∧ decodeTableWord 32 0x00005A06 = some (.dispatch 0x5A) ∧
  decodeTableWord 32 0x00000106 = some (.dispatch 1) ∧ decodeTableWord 32 0x00000107 = none ∧
  decodeTableWord 32 0x00000019 = some .mix11 ∧ decodeTableWord 16 0x1342 = some (.recipeMix211 4 3 1) ∧
  decodeTableWord 16 0x013A = some (.recipeMix11 3 1) ∧ decodeTableWord 64 0x0000000000000141 = some (.entryPlain 0x0141) ∧
  decodeTableWord 64 0x0000011313420000 = some (.entryCond 0x0000 0x1342 3 1) ∧
  decodeTableWord 48 0x10300000005 = some (.wr 0x03 5) ∧ decodeTableWord 48 0x10200000002 = some .clrfault ∧
  decodeTableWord 48 0x03F00000000 = some (.rd 0x3F)

/-- R55 with R113 and R117: with FAULT = 0 a CMD write raises ILLEGAL_CMD exactly for the words R55 lists, and runs the
instruction whose OP and PAT are the word's for every other word; with FAULT = 1 it is ignored. That a command row by itself
answers the state unchanged while FAULT = 1, which the last clause speaks of too, is the model's reading (DEDUCED, log 16). -/
def Obligations.CommandWordRunsOrIsIllegal : Prop :=
  ∀ (v : Word) (s : State),
    (s.fault = true → exec (.wr 0x01 v) s = .next s) ∧
    (s.fault = false →
      (v.toNat / 65536 ≠ 0 ∨ ¬ (v.toNat % 256 ≤ 0x08 ∨ (0x10 ≤ v.toNat % 256 ∧ v.toNat % 256 ≤ 0x19)) ∨
        (v.toNat % 256 ≠ 0x06 ∧ v.toNat / 256 % 256 ≠ 0)) →
      exec (.wr 0x01 v) s = .next { s with fault := true, faultCode := 0x01 }) ∧
    (v.toNat / 65536 = 0 → (v.toNat % 256 ≤ 0x08 ∨ (0x10 ≤ v.toNat % 256 ∧ v.toNat % 256 ≤ 0x19)) →
      (v.toNat % 256 = 0x06 ∨ v.toNat / 256 % 256 = 0) →
      ∃ i, decodeCmd v = .ok i ∧ encode i = .cmd v ∧ exec (.wr 0x01 v) s = exec i s)

/-! ## Steps -/

/-- A step takes the oldest input, and a bus transaction, a table entry or a recipe runs as exec of its decoding on the
state without that input; with no input the core holds its state (R126; inputs and single resolver steps are the model's
form, logs 1 and 10). -/
def Obligations.StepRunsTheDecodedInstruction : Prop :=
  ∀ (s : State) (rest : List Input),
    (s.inputs = [] → step s = .next s) ∧
    (∀ t, s.inputs = .bus t :: rest → step s = exec (decodeBus t) { s with inputs := rest }) ∧
    (∀ e i, s.inputs = .entry e :: rest → decodeEntry e = .ok i → step s = exec i { s with inputs := rest }) ∧
    (∀ r i, s.inputs = .recipe r :: rest → decodeRecipe r = .ok i → step s = exec i { s with inputs := rest })

/-- A word of the opcode table presented to the core is the instruction the very next step runs (log 1); for a command word
while FAULT = 1 this rests on the model's reading of the command rows (log 16). -/
def Obligations.PresentedWordIsTheNextInstruction : Prop :=
  ∀ (nbits w : Nat) (i : Instr) (s : State), decodeTableWord nbits w = some i → step (s.withFetchWord nbits w) = exec i s

/-- Every bus transaction answers a next state, in every state: no refusal and no stop. -/
def Obligations.EveryTransactionAnswersANextState : Prop :=
  ∀ (s : State) (t : BitVec 41), ∃ u, exec (decodeBus t) s = .next u

/-- NOP (R110), in every state, with or without a fault pending. -/
def Obligations.NopChangesNothing : Prop := ∀ s : State, exec .nop s = .next s

/-! ## Reset (70_reset_and_hazards.md) -/

/-- R127 and R20: State.reset holds the values the spec gives, and CAPS reads 0x00010103 under the defaults of R6. -/
def Obligations.ResetStateHoldsTheSpecValues : Prop :=
  State.AtReset State.reset ∧ statusWord State.reset = 0 ∧ capsWord State.reset.cfg = 0x00010103

/-- R127, R128: the reset input sets every register to its reset value, and keeps the parameters and pixel memory. -/
def Obligations.ResetInputRestoresTheRegisters : Prop :=
  ∀ (s : State) (rest : List Input), s.inputs = .reset :: rest →
    ∃ u, step s = .next u ∧ u.AtReset ∧ u.cfg = s.cfg ∧ u.mem = s.mem ∧ u.inputs = rest

/-- R128: reset during a transaction sets the registers to their reset values; a word of memory keeps its value, or, for a
MAGNIFY and a word of its destination extent, has the value the whole MAGNIFY writes. -/
def Obligations.CutTransactionLeavesEachWordOldOrNew : Prop :=
  ∀ (s : State) (t : BitVec 41) (rest : List Input), s.inputs = .cut t :: rest → s.mem.wf = true →
    ∃ u, step s = .next u ∧ u.AtReset ∧ u.cfg = s.cfg ∧
      ∀ a, memRead u a = memRead s a ∨
        (t = busWrite 0x01 0x00000008 ∧ s.dstBase.toNat ≤ a ∧ a < s.dstBase.toNat + destExtent s ∧
          ∃ v, exec .magnify { s with inputs := rest } = .next v ∧ memRead u a = memRead v a)

/-- R42: the host's store of a word of pixel memory; a word address that does not exist stops the model (log 19). -/
def Obligations.HostStoreWritesItsWordOnly : Prop :=
  ∀ (s : State) (a v : BitVec 32) (rest : List Input), s.inputs = .store a v :: rest → s.mem.wf = true →
    (a.toNat < s.cfg.memWords →
      ∃ u, step s = .next u ∧ u = { s with inputs := rest, mem := u.mem } ∧ memRead u a.toNat = v ∧
        ∀ b, b / 4 ≠ a.toNat → u.mem.readByte b = s.mem.readByte b) ∧
    (s.cfg.memWords ≤ a.toNat → step s = .fault (.noSuchWord a))

/-! ## Invariants -/

/-- Every step keeps the invariant, from every state that has it. -/
def Obligations.StepKeepsTheStateInvariant : Prop := ∀ s t : State, s.Inv → step s = .next t → t.Inv

/-- The reset state has the invariant. -/
def Obligations.ResetStateMeetsTheInvariant : Prop := State.Inv State.reset

/-- R35: no step changes the table ROMs or another parameter. -/
def Obligations.StepKeepsTablesAndParameters : Prop := ∀ s t : State, step s = .next t → t.cfg = s.cfg

/-! ## Register access (10_state.md, 45_control.md) -/

/-- R24 and R118: a host write to STATUS clears FAULT and FAULT_CODE where bit 1 is set and does nothing else; clrfault is
that write. -/
def Obligations.StatusWriteClearsTheFaultOnly : Prop :=
  ∀ (v : Word) (s : State),
    (v.getLsbD 1 = true → exec (.wr 0x02 v) s = .next { s with fault := false, faultCode := 0 }) ∧
    (v.getLsbD 1 = false → exec (.wr 0x02 v) s = .next s) ∧
    exec .clrfault s = .next { s with fault := false, faultCode := 0 }

/-- R37, R25: a host write to an RW register stores the value there and changes nothing else; CTRL keeps bits 2:0. -/
def Obligations.PlainWriteStoresItsRegister : Prop :=
  ∀ (v : Word) (s : State),
    exec (.wr 0x03 v) s = .next { s with ctrl := (v.extractLsb' 0 3).setWidth 32 } ∧
    exec (.wr 0x04 v) s = .next { s with thrY := v } ∧ exec (.wr 0x05 v) s = .next { s with thrU := v } ∧
    exec (.wr 0x06 v) s = .next { s with thrV := v } ∧ exec (.wr 0x07 v) s = .next { s with thrA := v } ∧
    exec (.wr 0x08 v) s = .next { s with opa := v } ∧ exec (.wr 0x09 v) s = .next { s with opb := v } ∧
    exec (.wr 0x0A v) s = .next { s with opc := v } ∧ exec (.wr 0x0C v) s = .next { s with srcBase := v } ∧
    exec (.wr 0x0D v) s = .next { s with srcLen := v } ∧ exec (.wr 0x0E v) s = .next { s with dstBase := v } ∧
    exec (.wr 0x0F v) s = .next { s with dstLen := v } ∧ exec (.wr 0x10 v) s = .next { s with width := v } ∧
    exec (.wr 0x11 v) s = .next { s with height := v } ∧
    ∀ i : Fin 9, exec (.wr (BitVec.ofNat 8 (0x20 + i.val)) v) s = .next { s with nb := s.nb.set i.val v }

/-- R37, R38, R116: a host write to CAPS, RESULT, OUT0 to OUT15 or a reserved index raises BAD_REG and changes no
register. -/
def Obligations.WriteToReadOnlyOrReservedRaisesBadReg : Prop :=
  ∀ (i : BitVec 8) (v : Word) (s : State),
    (i = 0x00 ∨ i = 0x0B ∨ (0x12 ≤ i.toNat ∧ i.toNat ≤ 0x1F) ∨ 0x29 ≤ i.toNat) →
    (s.fault = false → exec (.wr i v) s = .next { s with fault := true, faultCode := 0x03 }) ∧
    (s.fault = true → exec (.wr i v) s = .next s)

/-- R112, R21, R23: a host read of a readable register returns its value and changes nothing of the core; CAPS and STATUS
are composed as their tables say (lastRead is the response, log 13). -/
def Obligations.ReadReturnsItsRegister : Prop :=
  ∀ (s : State) (caps status : Nat),
    caps = 0x00010003 + (if s.cfg.alphaShift = .arith then 0x100 else 0) + (if s.cfg.yuvArith = .binary64 then 0x200 else 0) +
      (if s.cfg.uvTrunc = .chromaFirst then 0x400 else 0) + (if s.cfg.f5Weights = .w421 then 0x800 else 0) →
    status = (if s.lutValid then 1 else 0) + (if s.fault then 2 else 0) + 256 * s.faultCode.toNat →
    exec (.rd 0x00) s = .next { s with lastRead := BitVec.ofNat 32 caps } ∧
    exec (.rd 0x02) s = .next { s with lastRead := BitVec.ofNat 32 status } ∧
    exec (.rd 0x03) s = .next { s with lastRead := s.ctrl } ∧ exec (.rd 0x04) s = .next { s with lastRead := s.thrY } ∧
    exec (.rd 0x05) s = .next { s with lastRead := s.thrU } ∧ exec (.rd 0x06) s = .next { s with lastRead := s.thrV } ∧
    exec (.rd 0x07) s = .next { s with lastRead := s.thrA } ∧ exec (.rd 0x08) s = .next { s with lastRead := s.opa } ∧
    exec (.rd 0x09) s = .next { s with lastRead := s.opb } ∧ exec (.rd 0x0A) s = .next { s with lastRead := s.opc } ∧
    exec (.rd 0x0B) s = .next { s with lastRead := s.result } ∧ exec (.rd 0x0C) s = .next { s with lastRead := s.srcBase } ∧
    exec (.rd 0x0D) s = .next { s with lastRead := s.srcLen } ∧ exec (.rd 0x0E) s = .next { s with lastRead := s.dstBase } ∧
    exec (.rd 0x0F) s = .next { s with lastRead := s.dstLen } ∧ exec (.rd 0x10) s = .next { s with lastRead := s.width } ∧
    exec (.rd 0x11) s = .next { s with lastRead := s.height } ∧
    (∀ i : Fin 9, exec (.rd (BitVec.ofNat 8 (0x20 + i.val))) s = .next { s with lastRead := s.nb[i] }) ∧
    (∀ k : Fin 16, exec (.rd (BitVec.ofNat 8 (0x30 + k.val))) s = .next { s with lastRead := s.out[k] })

/-- R37, R38, R112, R116: a host read of CMD or of a reserved index returns 0 and raises BAD_REG. -/
def Obligations.ReadOfCmdOrReservedRaisesBadReg : Prop :=
  ∀ (i : BitVec 8) (s : State),
    (i = 0x01 ∨ (0x12 ≤ i.toNat ∧ i.toNat ≤ 0x1F) ∨ (0x29 ≤ i.toNat ∧ i.toNat ≤ 0x2F) ∨ 0x40 ≤ i.toNat) →
    (s.fault = false → exec (.rd i) s = .next { s with fault := true, faultCode := 0x03, lastRead := 0 }) ∧
    (s.fault = true → exec (.rd i) s = .next { s with lastRead := 0 })

/-- R130: a register read after a write returns the written value, subject to CTRL's masking. -/
def Obligations.ReadAfterWriteReturnsTheWrittenValue : Prop :=
  ∀ (i : BitVec 8) (v : Word) (s : State),
    ((0x03 ≤ i.toNat ∧ i.toNat ≤ 0x11 ∧ i ≠ 0x0B) ∨ (0x20 ≤ i.toNat ∧ i.toNat ≤ 0x28)) →
    ∃ t u, exec (.wr i v) s = .next t ∧ exec (.rd i) t = .next u ∧
      u.lastRead = (if i = 0x03 then v &&& 7 else v)

/-! ## Faults (60_exceptions.md) -/

/-- R116: a command or host access that raises a fault changes STATUS only; the code is one of R115, and a faulting read
returns 0. -/
def Obligations.FaultIsPrecise : Prop :=
  ∀ (i : Instr) (s t : State), exec i s = .next t → s.fault = false → t.fault = true →
    t = { s with fault := true, faultCode := t.faultCode, lastRead := t.lastRead } ∧
    1 ≤ t.faultCode.toNat ∧ t.faultCode.toNat ≤ 6 ∧
    (∀ x, i = .rd x → t.lastRead = 0) ∧ ((∀ x, i ≠ .rd x) → t.lastRead = s.lastRead)

/-- R116, R118: while FAULT = 1 the first code is kept; only a STATUS write with bit 1 set clears it. Of a command row by
itself this is the model's reading (log 16). -/
def Obligations.FaultIsStickyUntilCleared : Prop :=
  ∀ (i : Instr) (s t : State), exec i s = .next t → s.fault = true →
    (t.fault = true ∧ t.faultCode = s.faultCode) ∨
    ((i = .clrfault ∨ ∃ v : Word, i = .wr 0x02 v ∧ v.getLsbD 1 = true) ∧ t = { s with fault := false, faultCode := 0 })

/-- While FAULT = 1 every command is ignored, whichever it is. R117 says so of the host's write of CMD; that the command row
by itself is then the identity is the model's reading (DEDUCED, log 16). -/
def Obligations.EveryCommandIsIgnoredWhileFaulted : Prop :=
  ∀ (v : Word) (i : Instr) (s : State), decodeCmd v = .ok i → s.fault = true → exec i s = .next s

/-- R68, R115: the six commands that read the LUT raise LUT_NOT_READY while LUT_VALID = 0 and change nothing else. -/
def Obligations.LutCommandsNeedTheLut : Prop :=
  ∀ (i : Instr) (s : State), s.fault = false → s.lutValid = false →
    (i = .lookup ∨ i = .differs ∨ i = .classify ∨ (∃ pat, i = .dispatch pat) ∨ i = .pixel ∨ i = .magnify) →
    exec i s = .next { s with fault := true, faultCode := 0x02 }

/-! ## What changes which state -/

/-- R23, R30: only LUT_INIT, LUT_DEINIT and reset change LUT_VALID, among the instructions and among the steps. -/
def Obligations.OnlyLutCommandsChangeLutValid : Prop :=
  (∀ (i : Instr) (s t : State), exec i s = .next t →
    t.lutValid = s.lutValid ∨ (t.lutValid = true ∧ (i = .lutInit ∨ i = .wr 0x01 0x00000001)) ∨
      (t.lutValid = false ∧ (i = .lutDeinit ∨ i = .wr 0x01 0x00000002))) ∧
  (∀ s t : State, step s = .next t →
    t.lutValid = s.lutValid ∨
      (t.lutValid = true ∧ ∃ rest, s.inputs = .bus (busWrite 0x01 0x00000001) :: rest) ∨
      (t.lutValid = false ∧ ∃ rest, s.inputs = .bus (busWrite 0x01 0x00000002) :: rest ∨ s.inputs = .reset :: rest ∨
        ∃ c, s.inputs = .cut c :: rest))

/-- R40: among the instructions only MAGNIFY changes pixel memory. -/
def Obligations.OnlyMagnifyChangesMemory : Prop :=
  ∀ (i : Instr) (s t : State), exec i s = .next t → t.mem = s.mem ∨ i = .magnify ∨ i = .wr 0x01 0x00000008

/-- R29, R33: among the instructions only the commands listed there change RESULT and OUT, issued by themselves or as a CMD
write. -/
def Obligations.OnlyTheirCommandsChangeResultAndOut : Prop :=
  ∀ (i : Instr) (s t : State), exec i s = .next t →
    (t.result = s.result ∨ isCommandOf writesResult i) ∧ (t.out = s.out ∨ isCommandOf writesOut i)

/-- R28, R32, R34: no command writes a register of the host's. -/
def Obligations.CommandsKeepTheHostRegisters : Prop :=
  ∀ (v : Word) (i : Instr) (s t : State), decodeCmd v = .ok i → exec i s = .next t →
    t.ctrl = s.ctrl ∧ t.thrY = s.thrY ∧ t.thrU = s.thrU ∧ t.thrV = s.thrV ∧ t.thrA = s.thrA ∧ t.opa = s.opa ∧
    t.opb = s.opb ∧ t.opc = s.opc ∧ t.srcBase = s.srcBase ∧ t.srcLen = s.srcLen ∧ t.dstBase = s.dstBase ∧
    t.dstLen = s.dstLen ∧ t.width = s.width ∧ t.height = s.height ∧ t.nb = s.nb ∧ t.lastRead = s.lastRead ∧
    t.inputs = s.inputs

/-! ## The colour-space cache (40_lut.md) -/

/-- R65, R66: LUT_INIT sets LUT_VALID, LUT_DEINIT clears it, whatever it was, and nothing else changes. -/
def Obligations.LutInitAndDeinitSetLutValid : Prop :=
  ∀ s : State, s.fault = false →
    exec .lutInit s = .next { s with lutValid := true } ∧ exec .lutDeinit s = .next { s with lutValid := false }

/-- R67: LOOKUP writes yuv of OPA[23:0], zero-extended, to RESULT and nothing else, under every reading. -/
def Obligations.LookupWritesTheEntryOfOpa : Prop :=
  ∀ s : State, s.fault = false → s.lutValid = true →
    exec .lookup s = .next { s with result := (0 : BitVec 8) ++ yuv s.cfg (s.opa.extractLsb' 0 24) }

/-- R62, R67: LOOKUP's result under EXACT arithmetic in integers, for both placements of the truncation. -/
def Obligations.LookupUnderExactArithmetic : Prop :=
  ∀ (s : State) (r g b : Nat), s.fault = false → s.lutValid = true → s.cfg.yuvArith = .exact →
    r = s.opa.toNat / 65536 % 256 → g = s.opa.toNat / 256 % 256 → b = s.opa.toNat % 256 →
    ∃ t, exec .lookup s = .next t ∧ t = { s with result := t.result } ∧
      (s.cfg.uvTrunc = .whole →
        t.result.toNat = (299 * r + 587 * g + 114 * b) / 1000 * 65536 +
          (128000 + 500 * b - 169 * r - 331 * g) / 1000 * 256 + (128000 + 500 * r - 419 * g - 81 * b) / 1000) ∧
      (s.cfg.uvTrunc = .chromaFirst →
        (t.result.toNat : Int) = (299 * r + 587 * g + 114 * b : Nat) / 1000 * 65536 +
          (128 + (500 * (b : Int) - 169 * r - 331 * g).tdiv 1000) * 256 +
          (128 + (500 * (r : Int) - 419 * g - 81 * b).tdiv 1000))

/-- R62 (BINARY64): the rounding of an integer number of units (log 15) is to 53 significant bits, to nearest, ties to even,
and the same for a negative number but for the sign. -/
def Obligations.RoundingIsToNearestEven : Prop :=
  ∀ n : Nat,
    round64 (n : Int) = (roundNat53 n : Int) ∧ round64 (-(n : Int)) = -(roundNat53 n : Int) ∧
    (n < 2 ^ 53 → roundNat53 n = n) ∧
    (2 ^ 53 ≤ n →
      ∃ q, roundNat53 n = q * 2 ^ (Nat.log2 n - 52) ∧ 2 ^ 52 ≤ q ∧ q ≤ 2 ^ 53 ∧
        2 * ((roundNat53 n : Int) - n).natAbs ≤ 2 ^ (Nat.log2 n - 52) ∧
        (2 * ((roundNat53 n : Int) - n).natAbs = 2 ^ (Nat.log2 n - 52) → q % 2 = 0))

/-- R63 for EXACT: Y, U and V lie in 0 to 255, and U and V are at least 1 under CHROMA_FIRST. -/
def Obligations.ExactChannelsFitInAByte : Prop :=
  ∀ (p : Params) (i : Rgb), p.yuvArith = .exact →
    0 ≤ lumaY p (rgbR i) (rgbG i) (rgbB i) ∧ lumaY p (rgbR i) (rgbG i) (rgbB i) ≤ 255 ∧
    0 ≤ chromaU p (rgbR i) (rgbG i) (rgbB i) ∧ chromaU p (rgbR i) (rgbG i) (rgbB i) ≤ 255 ∧
    0 ≤ chromaV p (rgbR i) (rgbG i) (rgbB i) ∧ chromaV p (rgbR i) (rgbG i) (rgbB i) ≤ 255 ∧
    (p.uvTrunc = .chromaFirst →
      1 ≤ chromaU p (rgbR i) (rgbG i) (rgbB i) ∧ 1 ≤ chromaV p (rgbR i) (rgbG i) (rgbB i))

/-- R62, R63 for BINARY64: Y is the integer formula's or one less (V2.2); so are U and V under WHOLE, and under CHROMA_FIRST
they are within 1 of it; all lie in 0 to 255, and U and V are at least 1 under CHROMA_FIRST. -/
def Obligations.BinaryChannelsFitInAByte : Prop :=
  ∀ (p : Params) (i : Rgb) (r g b y nu nv : Int), p.yuvArith = .binary64 → r = rgbR i → g = rgbG i → b = rgbB i →
    y = (299 * r + 587 * g + 114 * b) / 1000 → nu = 500 * b - 169 * r - 331 * g → nv = 500 * r - 419 * g - 81 * b →
    (lumaY p r g b = y ∨ lumaY p r g b = y - 1) ∧
    (p.uvTrunc = .whole →
      (chromaU p r g b = (128000 + nu) / 1000 ∨ chromaU p r g b = (128000 + nu) / 1000 - 1) ∧
      (chromaV p r g b = (128000 + nv) / 1000 ∨ chromaV p r g b = (128000 + nv) / 1000 - 1)) ∧
    (p.uvTrunc = .chromaFirst →
      (chromaU p r g b - (128 + nu.tdiv 1000)).natAbs ≤ 1 ∧ (chromaV p r g b - (128 + nv.tdiv 1000)).natAbs ≤ 1) ∧
    0 ≤ lumaY p (rgbR i) (rgbG i) (rgbB i) ∧ lumaY p (rgbR i) (rgbG i) (rgbB i) ≤ 255 ∧
    0 ≤ chromaU p (rgbR i) (rgbG i) (rgbB i) ∧ chromaU p (rgbR i) (rgbG i) (rgbB i) ≤ 255 ∧
    0 ≤ chromaV p (rgbR i) (rgbG i) (rgbB i) ∧ chromaV p (rgbR i) (rgbG i) (rgbB i) ≤ 255 ∧
    (p.uvTrunc = .chromaFirst →
      1 ≤ chromaU p (rgbR i) (rgbG i) (rgbB i) ∧ 1 ≤ chromaV p (rgbR i) (rgbG i) (rgbB i))

/-! ## The classifier (41_classifier.md) -/

/-- R70, R27: differs with the thresholds latched from the registers is the unshifted comparison, and each channel
difference is at most 255, so that a threshold of 255 or more disables its channel. -/
def Obligations.DiffersIsTheUnshiftedComparison : Prop :=
  ∀ (s : State) (c1 c2 : Word) (q1 q2 : Nat),
    q1 = (yuv s.cfg (c1.extractLsb' 0 24)).toNat → q2 = (yuv s.cfg (c2.extractLsb' 0 24)).toNat →
    (differs s.cfg (effOf s) c1 c2 = true ↔
      (s.thrY.toNat < ((q1 / 65536 : Nat) - (q2 / 65536 : Nat) : Int).natAbs ∨
       s.thrU.toNat < ((q1 / 256 % 256 : Nat) - (q2 / 256 % 256 : Nat) : Int).natAbs ∨
       s.thrV.toNat < ((q1 % 256 : Nat) - (q2 % 256 : Nat) : Int).natAbs ∨
       s.thrA.toNat < (alphaOf s.cfg c1 - alphaOf s.cfg c2).natAbs)) ∧
    ((q1 / 65536 : Nat) - (q2 / 65536 : Nat) : Int).natAbs ≤ 255 ∧
    ((q1 / 256 % 256 : Nat) - (q2 / 256 % 256 : Nat) : Int).natAbs ≤ 255 ∧
    ((q1 % 256 : Nat) - (q2 % 256 : Nat) : Int).natAbs ≤ 255 ∧
    (alphaOf s.cfg c1 - alphaOf s.cfg c2).natAbs ≤ 255

/-- R71: (a) irreflexive, (b) symmetric, (c) a raised threshold turns no false result true, (d) colours equal in the low 24
bits differ only by alpha, (e) the low 24 bits count only through their LUT entries. -/
def Obligations.DiffersHasTheStatedProperties : Prop :=
  ∀ (p : Params) (e : EffThr),
    (∀ c, differs p e c c = false) ∧
    (∀ c1 c2, differs p e c1 c2 = differs p e c2 c1) ∧
    (∀ (e' : EffThr) c1 c2, e.y ≤ e'.y → e.u ≤ e'.u → e.v ≤ e'.v → e.a ≤ e'.a →
      differs p e' c1 c2 = true → differs p e c1 c2 = true) ∧
    (∀ c1 c2 : Word, c1.extractLsb' 0 24 = c2.extractLsb' 0 24 → differs p e c1 c2 = true →
      e.a.toNat < (alphaOf p c1 - alphaOf p c2).natAbs) ∧
    (∀ c1 c1' c2 c2' : Word, yuv p (c1.extractLsb' 0 24) = yuv p (c1'.extractLsb' 0 24) →
      yuv p (c2.extractLsb' 0 24) = yuv p (c2'.extractLsb' 0 24) → c1.extractLsb' 24 8 = c1'.extractLsb' 24 8 →
      c2.extractLsb' 24 8 = c2'.extractLsb' 24 8 → differs p e c1 c2 = differs p e c1' c2')

/-- R72: DIFFERS writes 1 or 0 to RESULT and latches the effective thresholds. -/
def Obligations.DiffersWritesOneOrZero : Prop :=
  ∀ s : State, s.fault = false → s.lutValid = true →
    exec .differs s =
      .next { s with eff := effOf s, result := if differs s.cfg (effOf s) s.opa s.opb then 1 else 0 }

/-- R73, R74: pattern bit j says whether the neighbour ORD[j] differs from the centre; the skip of bit-identical neighbours
changes no bit. -/
def Obligations.PatternBitIsDiffersOfItsNeighbour : Prop :=
  ∀ (p : Params) (e : EffThr) (w : Nbhd) (j : Fin 8),
    (classify p e w).getLsbD j.val =
      differs p e w[4] (w[(#v[0, 1, 2, 3, 5, 6, 7, 8] : Vector (Fin 9) 8)[j]])

/-- R75: CLASSIFY writes the pattern of NB0 to NB8, zero-extended, to RESULT. -/
def Obligations.ClassifyWritesThePattern : Prop :=
  ∀ s : State, s.fault = false → s.lutValid = true →
    exec .classify s =
      .next { s with eff := effOf s, result := (0 : BitVec 24) ++ classify s.cfg (effOf s) s.nb }

/-! ## The mixer (42_mixer.md) -/

/-- R78: the lane form of R77 equals the per-channel closed form, for every function, input and reading; two bit-identical
inputs of a 2-input function give that value; no R, G or B quotient exceeds 255. -/
def Obligations.LaneFormEqualsClosedForm : Prop :=
  ∀ (p : Params) (f : MixFn) (w1 w2 w3 : Nat), (w1, w2, w3) = weights p f →
    (∀ c1 c2 c3 : Word, mix p f c1 c2 c3 = closedMix p w1 w2 w3 (mixShift f) c1 c2 c3) ∧
    (takesTwo f = true → ∀ c c3 : Word, closedMix p w1 w2 w3 (mixShift f) c c c3 = c) ∧
    ∀ x1 x2 x3 : BitVec 8, (w1 * x1.toNat + w2 * x2.toNat + w3 * x3.toNat) / 2 ^ mixShift f ≤ 255

/-- R82, R84, R86, R91: the four 2-input MIX commands write their weighted average of OPA and OPB to RESULT only. -/
def Obligations.TwoInputMixCommandsAverage : Prop :=
  ∀ s : State, s.fault = false →
    exec .mix31 s = .next { s with result := closedMix s.cfg 3 1 0 2 s.opa s.opb 0 } ∧
    exec .mix71 s = .next { s with result := closedMix s.cfg 7 1 0 3 s.opa s.opb 0 } ∧
    exec .mix53 s = .next { s with result := closedMix s.cfg 5 3 0 3 s.opa s.opb 0 } ∧
    exec .mix11 s = .next { s with result := closedMix s.cfg 1 1 0 1 s.opa s.opb 0 }

/-- R83, R85, R87 to R90: the six 3-input MIX commands write their weighted average of OPA, OPB and OPC to RESULT only;
MIX_4_2_1 has the weights P_F5_WEIGHTS selects. -/
def Obligations.ThreeInputMixCommandsAverage : Prop :=
  ∀ s : State, s.fault = false →
    exec .mix211 s = .next { s with result := closedMix s.cfg 2 1 1 2 s.opa s.opb s.opc } ∧
    exec .mix277 s = .next { s with result := closedMix s.cfg 2 7 7 4 s.opa s.opb s.opc } ∧
    (s.cfg.f5Weights = .w521 →
      exec .mix421 s = .next { s with result := closedMix s.cfg 5 2 1 3 s.opa s.opb s.opc }) ∧
    (s.cfg.f5Weights = .w421 →
      exec .mix421 s = .next { s with result := closedMix s.cfg 4 2 1 3 s.opa s.opb s.opc }) ∧
    exec .mix611 s = .next { s with result := closedMix s.cfg 6 1 1 3 s.opa s.opb s.opc } ∧
    exec .mix233 s = .next { s with result := closedMix s.cfg 2 3 3 3 s.opa s.opb s.opc } ∧
    exec .mix1411 s = .next { s with result := closedMix s.cfg 14 1 1 4 s.opa s.opb s.opc }

/-- R79: under W521 every function returns c where all its inputs are c; the 2-input shortcut never changes a result; under
W421 function 5 breaks the identity (shown under ARITH) and the 2-input functions keep it. -/
def Obligations.MixerKeepsEqualInputs : Prop :=
  ∀ (p : Params) (f : MixFn) (c : Word),
    (p.f5Weights = .w521 → mix p f c c c = c) ∧
    (takesTwo f = true → mix p f c c c = c ∧ mixLanes p (weights p f) (mixShift f) c c 0 = c) ∧
    (p.f5Weights = .w421 → p.alphaShift = .arith → mix p .m421 0xFF808080 0xFF808080 0xFF808080 = 0xFF707070)

/-! ## The resolver (43_dispatch.md) -/

/-- R98, R94, R95: DISPATCH writes the colours of pattern PAT on NB to OUT[0] to OUT[N^2-1], keeps the other OUT, latches
the effective thresholds and changes nothing else. -/
def Obligations.DispatchWritesItsOutputs : Prop :=
  ∀ (pat : BitVec 8) (s : State) (n : Nat) (tab : List (BitVec 64)), s.fault = false → s.lutValid = true →
    n = (if s.ctrl.getLsbD 2 then 4 else 3) → tab = (if s.ctrl.getLsbD 2 then s.cfg.table4 else s.cfg.table3) →
    ∃ t, exec (.dispatch pat) s = .next t ∧ t = { s with eff := effOf s, out := t.out } ∧
      ∀ k : Fin 16, t.out[k] =
        if k.val < n * n then
          applyRecipe s.cfg
            (resolveEntry s.cfg (effOf s) (tab[pat.toNat * (n * n) + k.val]?.getD 0) s.nb) s.nb
        else s.out[k]

/-- R99: PIXEL writes the pattern of NB to RESULT and that pattern's colours to OUT[0] to OUT[N^2-1]. -/
def Obligations.PixelWritesPatternAndOutputs : Prop :=
  ∀ (s : State) (n : Nat) (tab : List (BitVec 64)) (pat : BitVec 8), s.fault = false → s.lutValid = true →
    n = (if s.ctrl.getLsbD 2 then 4 else 3) → tab = (if s.ctrl.getLsbD 2 then s.cfg.table4 else s.cfg.table3) →
    pat = classify s.cfg (effOf s) s.nb →
    ∃ t, exec .pixel s = .next t ∧
      t = { s with eff := effOf s, result := (0 : BitVec 24) ++ pat, out := t.out } ∧
      ∀ k : Fin 16, t.out[k] =
        if k.val < n * n then
          applyRecipe s.cfg
            (resolveEntry s.cfg (effOf s) (tab[pat.toNat * (n * n) + k.val]?.getD 0) s.nb) s.nb
        else s.out[k]

/-- R99: PIXEL is CLASSIFY followed by DISPATCH with PAT = RESULT, in every state; while FAULT = 1 by the model's reading of
the command rows (log 16). -/
def Obligations.PixelIsClassifyThenDispatch : Prop :=
  ∀ s : State, ∃ t, exec .classify s = .next t ∧ exec (.dispatch (t.result.extractLsb' 0 8)) t = exec .pixel s

/-- R97: for every well-formed table, under W521, a uniform neighbourhood of C has pattern 0 and every output of every
pattern is C. -/
def Obligations.UniformNeighbourhoodStaysUniform : Prop :=
  ∀ (p : Params) (e : EffThr) (n : Nat) (tab : List (BitVec 64)) (q : BitVec 8) (w : Nbhd) (c : Word) (k : Nat),
    p.f5Weights = .w521 → tableWf n tab = true → (∀ i : Fin 9, w[i] = c) → k < n * n →
    subPixel p e tab n q w k = c ∧ classify p e w = 0

/-- R95, R58: DISPATCH gives the colours that its pattern's entries, taken from the table at p * N^2 + k and run one after
another by the resolver from a latch holding NB, leave in the latch (log 10). -/
def Obligations.DispatchEqualsItsEntriesInTurn : Prop :=
  ∀ (pat : BitVec 8) (s : State), s.fault = false → s.lutValid = true →
    ∃ t u, exec (.dispatch pat) s = .next t ∧
      runEntries ((List.range (factor s * factor s)).map (entryAt (table s) (factor s) pat))
        { s with eff := effOf s, latch := { s.latch with w := s.nb, sub := 0 } } = .next u ∧
      u = { s with eff := effOf s, latch := u.latch } ∧
      ∀ k : Fin 16, k.val < factor s * factor s → u.latch.out[k] = t.out[k]

/-- R93: the recipe COPY gives the centre colour of the neighbourhood (a single step over the latch, log 10). -/
def Obligations.CopyRecipeGivesTheCentre : Prop :=
  ∀ s : State,
    exec .recipeCopy s =
      .next { s with latch :=
        { s.latch with out := s.latch.out.set s.latch.sub.toNat s.latch.w[4] s.latch.sub.isLt } }

/-- R93 with R82, R84, R86, R91: the 2-input recipes give the closed form of their function over w[I1] and w[I2] (a single
step over the latch, log 10). -/
def Obligations.TwoInputRecipesMixTheirNeighbours : Prop :=
  ∀ (s : State) (i1 i2 : BitVec 4) (h1 : i1.toNat < 9) (h2 : i2.toNat < 9),
    exec (.recipeMix31 i1 i2) s = .next (putSub s (closedMix s.cfg 3 1 0 2 s.latch.w[i1.toNat] s.latch.w[i2.toNat] 0)) ∧
    exec (.recipeMix71 i1 i2) s = .next (putSub s (closedMix s.cfg 7 1 0 3 s.latch.w[i1.toNat] s.latch.w[i2.toNat] 0)) ∧
    exec (.recipeMix53 i1 i2) s = .next (putSub s (closedMix s.cfg 5 3 0 3 s.latch.w[i1.toNat] s.latch.w[i2.toNat] 0)) ∧
    exec (.recipeMix11 i1 i2) s = .next (putSub s (closedMix s.cfg 1 1 0 1 s.latch.w[i1.toNat] s.latch.w[i2.toNat] 0))

/-- R93 with R83, R85, R87 to R90: the 3-input recipes give the closed form of their function over w[I1], w[I2] and w[I3] (a
single step over the latch, log 10). -/
def Obligations.ThreeInputRecipesMixTheirNeighbours : Prop :=
  ∀ (s : State) (i1 i2 i3 : BitVec 4) (c1 c2 c3 : Word) (h1 : i1.toNat < 9) (h2 : i2.toNat < 9) (h3 : i3.toNat < 9),
    c1 = s.latch.w[i1.toNat] → c2 = s.latch.w[i2.toNat] → c3 = s.latch.w[i3.toNat] →
    exec (.recipeMix211 i1 i2 i3) s = .next (putSub s (closedMix s.cfg 2 1 1 2 c1 c2 c3)) ∧
    exec (.recipeMix277 i1 i2 i3) s = .next (putSub s (closedMix s.cfg 2 7 7 4 c1 c2 c3)) ∧
    (s.cfg.f5Weights = .w521 →
      exec (.recipeMix421 i1 i2 i3) s = .next (putSub s (closedMix s.cfg 5 2 1 3 c1 c2 c3))) ∧
    (s.cfg.f5Weights = .w421 →
      exec (.recipeMix421 i1 i2 i3) s = .next (putSub s (closedMix s.cfg 4 2 1 3 c1 c2 c3))) ∧
    exec (.recipeMix611 i1 i2 i3) s = .next (putSub s (closedMix s.cfg 6 1 1 3 c1 c2 c3)) ∧
    exec (.recipeMix233 i1 i2 i3) s = .next (putSub s (closedMix s.cfg 2 3 3 3 c1 c2 c3)) ∧
    exec (.recipeMix1411 i1 i2 i3) s = .next (putSub s (closedMix s.cfg 14 1 1 4 c1 c2 c3))

/-- R58, I8: parameters with a table that is not well formed give no core, legal ones give the core in its reset state, and
so every entry a command can meet, in every state, is well formed. A single recipe or entry that is not well formed (R56,
R57) is refused and does nothing (log 12). -/
def Obligations.IllFormedRecipesAndEntriesAreRefused : Prop :=
  (∀ p : Params,
    (p.table3.length ≠ 256 * 9 ∨ p.table4.length ≠ 256 * 16 ∨ ∃ e ∈ p.table3 ++ p.table4, entryWf e = false) →
    instantiate p = .refused .malformedTable) ∧
  (∀ p : Params, p.table3.length = 256 * 9 → p.table4.length = 256 * 16 → (∀ e ∈ p.table3 ++ p.table4, entryWf e = true) →
    1 ≤ p.memWords → p.memWords ≤ 2 ^ 32 → ∃ s, instantiate p = .next s ∧ s.cfg = p ∧ s.AtReset) ∧
  (∀ (s : State) (q : BitVec 8) (k : Nat), k < factor s * factor s →
    ∃ e, (table s)[q.toNat * (factor s * factor s) + k]? = some e ∧ entryWf e = true) ∧
  (∀ (i : Instr) (s : State), i.wf = false → (∀ index data, i ≠ .wr index data) →
    exec i s = .refused .malformedRecipe ∨ exec i s = .refused .malformedEntry)

/-- R94: a plain entry assigns its recipe's colour to the current sub-pixel and the resolver goes on to the next (a single
step over the latch, log 10). -/
def Obligations.PlainEntryAppliesItsRecipe : Prop :=
  ∀ (s : State) (r : BitVec 16), recipeWf r = true →
    exec (.entryPlain r) s = .next (nextSub (putSub s (applyRecipe s.cfg r s.latch.w)))

/-- R94: a conditional entry assigns RD's colour where w[TA] and w[TB] differ, else RS's (a single step over the latch, log
10); its test needs the LUT (log 11). -/
def Obligations.ConditionalEntryTestsTwoNeighbours : Prop :=
  ∀ (s : State) (rd rs : BitVec 16) (ta tb : BitVec 4) (ha : ta.toNat < 9) (hb : tb.toNat < 9),
    recipeWf rd = true → recipeWf rs = true →
    (s.lutValid = true →
      exec (.entryCond rd rs ta tb) s =
        .next (nextSub (putSub s
          (applyRecipe s.cfg
            (if differs s.cfg s.eff s.latch.w[ta.toNat] s.latch.w[tb.toNat] then rd else rs) s.latch.w)))) ∧
    (s.lutValid = false → s.fault = false →
      exec (.entryCond rd rs ta tb) s = .next { s with fault := true, faultCode := 0x02 })

/-! ## The driver (44_driver.md) -/

/-- R103: MAGNIFY's checks in their order, each raising its fault with no other effect; an empty image ends after the LUT
check; with every check passed it answers a next state without a fault. -/
def Obligations.MagnifyChecksInOrder : Prop :=
  ∀ (s : State) (n se de : Nat), s.fault = false → n = (if s.ctrl.getLsbD 2 then 4 else 3) →
    se = s.width.toNat * s.height.toNat → de = (s.width.toNat * n) * (s.height.toNat * n) →
    if s.lutValid = false then exec .magnify s = .next { s with fault := true, faultCode := 0x02 }
    else if se = 0 then exec .magnify s = .next s
    else if s.srcLen.toNat < se ∨ s.dstLen.toNat < de then
      exec .magnify s = .next { s with fault := true, faultCode := 0x04 }
    else if s.srcBase.toNat + se > s.cfg.memWords ∨ s.dstBase.toNat + de > s.cfg.memWords then
      exec .magnify s = .next { s with fault := true, faultCode := 0x05 }
    else if s.srcBase.toNat < s.dstBase.toNat + de ∧ s.dstBase.toNat < s.srcBase.toNat + se then
      exec .magnify s = .next { s with fault := true, faultCode := 0x06 }
    else ∃ t, exec .magnify s = .next t ∧ t.fault = false

/-- R102, R106, R108: where MAGNIFY runs, destination word (x * N + sx, y * N + sy) holds sub-pixel k = sy * N + sx of the
outputs of source pixel (x, y)'s neighbourhood as it stood before, every byte outside the destination extent is unchanged,
and every register is unchanged. -/
def Obligations.MagnifyWritesTheMagnifiedImage : Prop :=
  ∀ (s : State) (n de : Nat), s.fault = false → s.lutValid = true → s.mem.wf = true → n = factor s →
    de = (s.width.toNat * n) * (s.height.toNat * n) → magnifyCheck s = none →
    s.width ≠ 0 → s.height ≠ 0 →
    ∃ t, exec .magnify s = .next t ∧ t = { s with eff := effOf s, latch := t.latch, mem := t.mem } ∧
      (∀ x y sx sy, x < s.width.toNat → y < s.height.toNat → sx < n → sy < n →
        memRead t (s.dstBase.toNat + (y * n + sy) * (s.width.toNat * n) + (x * n + sx)) =
          subPixel s.cfg (effOf s) (table s) n (classify s.cfg (effOf s) (gather s x y)) (gather s x y) (sy * n + sx)) ∧
      (∀ b, b < 4 * s.dstBase.toNat ∨ 4 * (s.dstBase.toNat + de) ≤ b → t.mem.readByte b = s.mem.readByte b)

/-- R104: each neighbour of a source pixel is read at its column and row, wrapped or clamped to the centre's own, inside the
source extent. -/
def Obligations.GatherWrapsOrClampsInsideTheSource : Prop :=
  ∀ (s : State) (x y : Nat) (j : Fin 9) (dx dy col row : Int) (w h : Nat), w = s.width.toNat → h = s.height.toNat →
    x < w → y < h → dx = (j.val % 3 : Nat) - 1 → dy = (j.val / 3 : Nat) - 1 →
    col = (if 0 ≤ x + dx ∧ x + dx < w then x + dx else if s.ctrl.getLsbD 0 then (x + dx) % w else x) →
    row = (if 0 ≤ y + dy ∧ y + dy < h then y + dy else if s.ctrl.getLsbD 1 then (y + dy) % h else y) →
    (gather s x y)[j] = memRead s (s.srcBase.toNat + (row * w + col).toNat) ∧
      0 ≤ row * w + col ∧ row * w + col < w * h

/-- R106: the map from (x, y, k) to the destination address is one-to-one onto the destination extent. -/
def Obligations.DestinationMapIsOneToOneOnto : Prop :=
  ∀ s : State,
    (∀ x y k, x < widthOf s → y < heightOf s → k < factor s * factor s →
      s.dstBase.toNat ≤ destAddr s x y k ∧ destAddr s x y k < s.dstBase.toNat + destExtent s) ∧
    (∀ x y k x' y' k', x < widthOf s → y < heightOf s → k < factor s * factor s → x' < widthOf s → y' < heightOf s →
      k' < factor s * factor s → destAddr s x y k = destAddr s x' y' k' → x = x' ∧ y = y' ∧ k = k') ∧
    (∀ a, s.dstBase.toNat ≤ a → a < s.dstBase.toNat + destExtent s →
      ∃ x y k, x < widthOf s ∧ y < heightOf s ∧ k < factor s * factor s ∧ destAddr s x y k = a)

/-- R109 (a), R97: a uniform source magnifies to a uniform destination, for every well-formed table, under W521. -/
def Obligations.UniformImageMagnifiesToUniformImage : Prop :=
  ∀ (s : State) (c : Word), s.fault = false → s.lutValid = true → s.mem.wf = true → s.cfg.f5Weights = .w521 →
    magnifyCheck s = none →
    (∀ a, s.srcBase.toNat ≤ a → a < s.srcBase.toNat + sourceExtent s → memRead s a = c) →
    ∃ t, exec .magnify s = .next t ∧
      ∀ a, s.dstBase.toNat ≤ a → a < s.dstBase.toNat + destExtent s → memRead t a = c
end

