-- ==== Sys2Proof/Laws/Memory.lean ====
section
/-!
SUPPORT. The laws of pixel memory: every operation keeps the canonical form and the bounds, a read after a write gives what
was written and every other byte and word reads as before, and memories in canonical form that read alike are equal.
-/

namespace Sys2Proof.Machine

/-! ## The canonical form -/

@[simp] theorem Memory.wf_nil : Memory.wf [] = true := rfl

theorem Memory.wf_cons (c : Host.Cell) (m : Memory) :
    Memory.wf (c :: m) = true ↔ c.2 ≠ unlistedByte ∧ (∀ d ∈ m, c.1 < d.1) ∧ Memory.wf m = true := by
  simp only [Memory.wf, Bool.and_eq_true, List.all_eq_true, decide_eq_true_eq, and_assoc]

theorem Memory.mem_writeByte {m : Memory} {a : Nat} {v : BitVec 8} {d : Host.Cell} (h : d ∈ m.writeByte a v) :
    d ∈ m ∨ d.1 = a := by
  induction m with
  | nil =>
    simp only [Memory.writeByte] at h
    split at h <;> simp_all
  | cons c rest ih =>
    simp only [Memory.writeByte] at h
    split at h
    · split at h
      · exact .inl h
      · rcases List.mem_cons.mp h with rfl | h
        · exact .inr rfl
        · exact .inl h
    · split at h
      · split at h
        · exact .inl (List.mem_cons_of_mem _ h)
        · rcases List.mem_cons.mp h with rfl | h
          · exact .inr rfl
          · exact .inl (List.mem_cons_of_mem _ h)
      · rcases List.mem_cons.mp h with rfl | h
        · exact .inl (List.mem_cons_self ..)
        · rcases ih h with h | h
          · exact .inl (List.mem_cons_of_mem _ h)
          · exact .inr h

/-- A write of a byte keeps the canonical form. -/
theorem Memory.wf_writeByte (m : Memory) (a : Nat) (v : BitVec 8) (h : m.wf = true) : (m.writeByte a v).wf = true := by
  induction m with
  | nil =>
    simp only [Memory.writeByte]
    split
    · rfl
    · next hv => exact (Memory.wf_cons _ _).mpr ⟨hv, by simp, rfl⟩
  | cons c rest ih =>
    obtain ⟨hc, hlt, hr⟩ := (Memory.wf_cons _ _).mp h
    simp only [Memory.writeByte]
    split
    · next hac =>
      split
      · exact h
      · next hv =>
        refine (Memory.wf_cons _ _).mpr ⟨hv, ?_, h⟩
        intro d hd
        rcases List.mem_cons.mp hd with rfl | hd
        · exact hac
        · exact lt_trans hac (hlt d hd)
    · split
      · next hac =>
        split
        · exact hr
        · next hv => exact (Memory.wf_cons _ _).mpr ⟨hv, fun d hd => hac ▸ hlt d hd, hr⟩
      · refine (Memory.wf_cons _ _).mpr ⟨hc, ?_, ih hr⟩
        intro d hd
        rcases Memory.mem_writeByte hd with hd | hd
        · exact hlt d hd
        · omega

/-- A write of a byte inside the memory keeps every listed byte inside it. -/
theorem Memory.inBounds_writeByte (m : Memory) (a n : Nat) (v : BitVec 8) (h : m.inBounds n = true) (ha : a < 4 * n) :
    (m.writeByte a v).inBounds n = true := by
  simp only [Memory.inBounds, List.all_eq_true, decide_eq_true_eq] at h ⊢
  intro d hd
  rcases Memory.mem_writeByte hd with hd | hd
  · exact h d hd
  · omega

/-! ## Bytes -/

@[simp] theorem Memory.readByte_nil (b : Nat) : Memory.readByte [] b = unlistedByte := rfl

theorem Memory.readByte_cons (c : Host.Cell) (m : Memory) (b : Nat) :
    Memory.readByte (c :: m) b = if c.1 = b then c.2 else Memory.readByte m b := rfl

theorem Memory.readByte_of_lt {m : Memory} {b : Nat} (h : ∀ d ∈ m, b < d.1) : m.readByte b = unlistedByte := by
  induction m with
  | nil => rfl
  | cons c rest ih =>
    have hc := h c (List.mem_cons_self ..)
    rw [Memory.readByte_cons, if_neg (by omega)]
    exact ih fun d hd => h d (List.mem_cons_of_mem _ hd)

/-- Reading a byte after writing one. -/
theorem Memory.readByte_writeByte (m : Memory) (a b : Nat) (v : BitVec 8) (h : m.wf = true) :
    (m.writeByte a v).readByte b = if b = a then v else m.readByte b := by
  induction m with
  | nil =>
    simp only [Memory.writeByte]
    split
    · next hv => split <;> simp [hv]
    · simp only [Memory.readByte_cons, Memory.readByte_nil]
      split <;> split <;> first | rfl | omega
  | cons c rest ih =>
    obtain ⟨hc, hlt, hr⟩ := (Memory.wf_cons _ _).mp h
    simp only [Memory.writeByte]
    split
    · next hac =>
      split
      · next hv =>
        split
        · next hb =>
          subst hb
          rw [hv]
          apply Memory.readByte_of_lt
          intro d hd
          rcases List.mem_cons.mp hd with rfl | hd
          · exact hac
          · exact lt_trans hac (hlt d hd)
        · rfl
      · simp only [Memory.readByte_cons]
        by_cases hb : b = a
        · subst hb; simp
        · rw [if_neg hb, if_neg (fun h => hb h.symm)]
    · split
      · next hac =>
        subst hac
        split
        · next hv =>
          by_cases hb : b = c.1
          · subst hb
            rw [if_pos rfl, hv]
            exact Memory.readByte_of_lt hlt
          · rw [if_neg hb, Memory.readByte_cons, if_neg (fun h => hb h.symm)]
        · simp only [Memory.readByte_cons]
          by_cases hb : b = c.1
          · subst hb; simp
          · rw [if_neg hb, if_neg (fun h => hb h.symm), if_neg (fun h => hb h.symm)]
      · next hge hne =>
        rw [Memory.readByte_cons, Memory.readByte_cons, ih hr]
        by_cases hb : c.1 = b
        · rw [if_pos hb, if_pos hb, if_neg (by omega)]
        · rw [if_neg hb, if_neg hb]

/-- A byte listed nowhere outside the bounds reads as an unlisted byte. -/
theorem Memory.readByte_outside {m : Memory} {n b : Nat} (h : m.inBounds n = true) (hb : 4 * n ≤ b) :
    m.readByte b = unlistedByte := by
  simp only [Memory.inBounds, List.all_eq_true, decide_eq_true_eq] at h
  induction m with
  | nil => rfl
  | cons c rest ih =>
    have hc := h c (List.mem_cons_self ..)
    rw [Memory.readByte_cons, if_neg (by omega)]
    exact ih fun d hd => h d (List.mem_cons_of_mem _ hd)

/-- Two memories in canonical form that read alike are equal. -/
theorem Memory.eq_of_readByte_eq (m m' : Memory) (h : m.wf = true) (h' : m'.wf = true)
    (heq : ∀ b, m.readByte b = m'.readByte b) : m = m' := by
  induction m generalizing m' with
  | nil =>
    cases m' with
    | nil => rfl
    | cons c rest =>
      have := heq c.1
      simp only [Memory.readByte_nil, Memory.readByte_cons, if_true] at this
      exact absurd this.symm ((Memory.wf_cons _ _).mp h').1
  | cons c rest ih =>
    obtain ⟨hc, hlt, hr⟩ := (Memory.wf_cons _ _).mp h
    cases m' with
    | nil =>
      have := heq c.1
      simp only [Memory.readByte_nil, Memory.readByte_cons, if_true] at this
      exact absurd this hc
    | cons d rest' =>
      obtain ⟨hd, hlt', hr'⟩ := (Memory.wf_cons _ _).mp h'
      have key : c.1 = d.1 := by
        rcases lt_trichotomy c.1 d.1 with hcd | hcd | hcd
        · have h1 := heq c.1
          rw [Memory.readByte_cons, if_pos rfl, Memory.readByte_of_lt (m := d :: rest') (by
            intro e he
            rcases List.mem_cons.mp he with rfl | he
            · exact hcd
            · exact lt_trans hcd (hlt' e he))] at h1
          exact absurd h1 hc
        · exact hcd
        · have h1 := heq d.1
          rw [Memory.readByte_cons d, if_pos rfl, Memory.readByte_of_lt (m := c :: rest) (by
            intro e he
            rcases List.mem_cons.mp he with rfl | he
            · exact hcd
            · exact lt_trans hcd (hlt e he))] at h1
          exact absurd h1.symm hd
      have hv : c.2 = d.2 := by
        have h1 := heq c.1
        rwa [Memory.readByte_cons, if_pos rfl, Memory.readByte_cons, if_pos key.symm] at h1
      have htail : rest = rest' := by
        refine ih rest' hr hr' fun b => ?_
        by_cases hb : c.1 = b
        · subst hb
          rw [Memory.readByte_of_lt hlt, Memory.readByte_of_lt (key ▸ hlt')]
        · have h1 := heq b
          rwa [Memory.readByte_cons, if_neg hb, Memory.readByte_cons, if_neg (key ▸ hb)] at h1
      rw [htail, Prod.ext key hv]

/-! ## Words -/

/-- The byte lanes of word a lie at 4a to 4a + 3. -/
theorem laneAddr_div (o : ByteOrder) (a j : Nat) (hj : j < 4) : laneAddr o a j / 4 = a := by
  cases o <;> simp only [laneAddr] <;> omega

theorem laneAddr_lt (o : ByteOrder) (a j n : Nat) (hj : j < 4) (ha : a < n) : laneAddr o a j < 4 * n := by
  cases o <;> simp only [laneAddr] <;> omega

theorem laneAddr_ne_word (o : ByteOrder) {a b i j : Nat} (hi : i < 4) (hj : j < 4) (h : a ≠ b) :
    laneAddr o a i ≠ laneAddr o b j := fun he => h (by rw [← laneAddr_div o a i hi, ← laneAddr_div o b j hj, he])

theorem laneAddr_inj (o : ByteOrder) (a : Nat) {i j : Nat} (hi : i < 4) (hj : j < 4) :
    laneAddr o a i = laneAddr o a j ↔ i = j := by
  cases o <;> simp only [laneAddr] <;> omega

/-- A write of a word keeps the canonical form. -/
theorem Memory.wf_writeWord (o : ByteOrder) (m : Memory) (a : Nat) (v : Word) (h : m.wf = true) :
    (m.writeWord o a v).wf = true :=
  Memory.wf_writeByte _ _ _ (Memory.wf_writeByte _ _ _ (Memory.wf_writeByte _ _ _ (Memory.wf_writeByte _ _ _ h)))

/-- A write of a word that exists keeps every listed byte inside the memory. -/
theorem Memory.inBounds_writeWord (o : ByteOrder) (m : Memory) (a n : Nat) (v : Word) (h : m.inBounds n = true)
    (ha : a < n) : (m.writeWord o a v).inBounds n = true :=
  Memory.inBounds_writeByte _ _ _ _ (Memory.inBounds_writeByte _ _ _ _ (Memory.inBounds_writeByte _ _ _ _
    (Memory.inBounds_writeByte _ _ _ _ h (laneAddr_lt _ _ _ _ (by omega) ha)) (laneAddr_lt _ _ _ _ (by omega) ha))
    (laneAddr_lt _ _ _ _ (by omega) ha)) (laneAddr_lt _ _ _ _ (by omega) ha)

/-- Every byte after the write of a word, as four byte writes. -/
theorem Memory.readByte_writeWord (o : ByteOrder) (m : Memory) (a b : Nat) (v : Word) (h : m.wf = true) :
    (m.writeWord o a v).readByte b =
      if b = laneAddr o a 3 then lane v 3 else if b = laneAddr o a 2 then lane v 2
      else if b = laneAddr o a 1 then lane v 1 else if b = laneAddr o a 0 then lane v 0 else m.readByte b := by
  have h0 := Memory.wf_writeByte m (laneAddr o a 0) (lane v 0) h
  have h1 := Memory.wf_writeByte _ (laneAddr o a 1) (lane v 1) h0
  have h2 := Memory.wf_writeByte _ (laneAddr o a 2) (lane v 2) h1
  rw [Memory.writeWord, Memory.readByte_writeByte _ _ _ _ h2, Memory.readByte_writeByte _ _ _ _ h1,
    Memory.readByte_writeByte _ _ _ _ h0, Memory.readByte_writeByte _ _ _ _ h]

/-- A byte of another word reads as before. -/
theorem Memory.readByte_writeWord_outside (o : ByteOrder) (m : Memory) (a b : Nat) (v : Word) (h : m.wf = true)
    (hb : b / 4 ≠ a) : (m.writeWord o a v).readByte b = m.readByte b := by
  have key : ∀ j, j < 4 → b ≠ laneAddr o a j := fun j hj he => hb (by rw [he, laneAddr_div o a j hj])
  rw [Memory.readByte_writeWord o m a b v h, if_neg (key 3 (by omega)), if_neg (key 2 (by omega)),
    if_neg (key 1 (by omega)), if_neg (key 0 (by omega))]

/-- The four lanes of a word make the word. -/
theorem lanes_append (v : Word) : lane v 3 ++ lane v 2 ++ lane v 1 ++ lane v 0 = v := by
  apply BitVec.eq_of_getLsbD_eq
  intro i hi
  simp only [lane, BitVec.getLsbD_append, BitVec.getLsbD_extractLsb']
  interval_cases i <;> simp

/-- A word reads back as it was written. -/
theorem Memory.readWord_writeWord_same (o : ByteOrder) (m : Memory) (a : Nat) (v : Word) (h : m.wf = true) :
    (m.writeWord o a v).readWord o a = v := by
  have key : ∀ j, j < 4 → (m.writeWord o a v).readByte (laneAddr o a j) = lane v j := by
    intro j hj
    rw [Memory.readByte_writeWord o m a _ v h]
    simp only [laneAddr_inj o a hj (show 3 < 4 by omega), laneAddr_inj o a hj (show 2 < 4 by omega),
      laneAddr_inj o a hj (show 1 < 4 by omega), laneAddr_inj o a hj (show 0 < 4 by omega)]
    interval_cases j <;> rfl
  rw [Memory.readWord, key 3 (by omega), key 2 (by omega), key 1 (by omega), key 0 (by omega), lanes_append]

/-- Every other word reads as before. -/
theorem Memory.readWord_writeWord_other (o : ByteOrder) (m : Memory) (a b : Nat) (v : Word) (h : m.wf = true)
    (hb : b ≠ a) : (m.writeWord o a v).readWord o b = m.readWord o b := by
  have key : ∀ j, j < 4 → (m.writeWord o a v).readByte (laneAddr o b j) = m.readByte (laneAddr o b j) :=
    fun j hj => Memory.readByte_writeWord_outside o m a _ v h (by rw [laneAddr_div o b j hj]; exact hb)
  rw [Memory.readWord, key 3 (by omega), key 2 (by omega), key 1 (by omega), key 0 (by omega), Memory.readWord]

/-- Words read alike when their bytes do. -/
theorem Memory.readWord_congr (o : ByteOrder) (m m' : Memory) (a : Nat)
    (h : ∀ b, b / 4 = a → m.readByte b = m'.readByte b) : m.readWord o a = m'.readWord o a := by
  rw [Memory.readWord, Memory.readWord, h _ (laneAddr_div o a 3 (by omega)), h _ (laneAddr_div o a 2 (by omega)),
    h _ (laneAddr_div o a 1 (by omega)), h _ (laneAddr_div o a 0 (by omega))]

/-! ## Runs of writes -/

/-- A run of writes keeps what each write keeps. -/
theorem Memory.foldl_keeps {α : Type} (P : Memory → Prop) (f : Memory → α → Memory) (l : List α) (m : Memory)
    (hm : P m) (hf : ∀ m x, x ∈ l → P m → P (f m x)) : P (l.foldl f m) := by
  induction l generalizing m with
  | nil => exact hm
  | cons x rest ih =>
    exact ih (f m x) (hf m x (List.mem_cons_self ..) hm) fun m y hy => hf m y (List.mem_cons_of_mem _ hy)

/-- The writes of one source pixel keep the canonical form. -/
theorem pixelMemory_wf (s : State) (x y : Nat) (h : s.mem.wf = true) : (pixelMemory s x y).wf = true :=
  Memory.foldl_keeps (fun m => m.wf = true) _ _ _ h fun _ _ _ hm => Memory.wf_writeWord _ _ _ _ hm

end Sys2Proof.Machine
end

