-- ==== Sys2Proof/Laws/State.lean ====
section
/-!
SUPPORT. One lemma per field per named update of State: what each update leaves and what it writes, true by rfl or one unfolding (a case
split on FAULT for raiseFault), so that no later proof unfolds a record update.
-/

namespace Sys2Proof.Machine

/-! ## clearFault (R118) -/

@[simp] theorem clearFault_chip (s : State) : (clearFault s).chip = s.chip := rfl
@[simp] theorem clearFault_cfg (s : State) : (clearFault s).cfg = s.cfg := rfl
@[simp] theorem clearFault_ctrl (s : State) : (clearFault s).ctrl = s.ctrl := rfl
@[simp] theorem clearFault_thrY (s : State) : (clearFault s).thrY = s.thrY := rfl
@[simp] theorem clearFault_thrU (s : State) : (clearFault s).thrU = s.thrU := rfl
@[simp] theorem clearFault_thrV (s : State) : (clearFault s).thrV = s.thrV := rfl
@[simp] theorem clearFault_thrA (s : State) : (clearFault s).thrA = s.thrA := rfl
@[simp] theorem clearFault_opa (s : State) : (clearFault s).opa = s.opa := rfl
@[simp] theorem clearFault_opb (s : State) : (clearFault s).opb = s.opb := rfl
@[simp] theorem clearFault_opc (s : State) : (clearFault s).opc = s.opc := rfl
@[simp] theorem clearFault_result (s : State) : (clearFault s).result = s.result := rfl
@[simp] theorem clearFault_srcBase (s : State) : (clearFault s).srcBase = s.srcBase := rfl
@[simp] theorem clearFault_srcLen (s : State) : (clearFault s).srcLen = s.srcLen := rfl
@[simp] theorem clearFault_dstBase (s : State) : (clearFault s).dstBase = s.dstBase := rfl
@[simp] theorem clearFault_dstLen (s : State) : (clearFault s).dstLen = s.dstLen := rfl
@[simp] theorem clearFault_width (s : State) : (clearFault s).width = s.width := rfl
@[simp] theorem clearFault_height (s : State) : (clearFault s).height = s.height := rfl
@[simp] theorem clearFault_nb (s : State) : (clearFault s).nb = s.nb := rfl
@[simp] theorem clearFault_out (s : State) : (clearFault s).out = s.out := rfl
@[simp] theorem clearFault_lutValid (s : State) : (clearFault s).lutValid = s.lutValid := rfl
@[simp] theorem clearFault_fault (s : State) : (clearFault s).fault = false := rfl
@[simp] theorem clearFault_faultCode (s : State) : (clearFault s).faultCode = 0 := rfl
@[simp] theorem clearFault_eff (s : State) : (clearFault s).eff = s.eff := rfl
@[simp] theorem clearFault_latch (s : State) : (clearFault s).latch = s.latch := rfl
@[simp] theorem clearFault_mem (s : State) : (clearFault s).mem = s.mem := rfl
@[simp] theorem clearFault_lastRead (s : State) : (clearFault s).lastRead = s.lastRead := rfl
@[simp] theorem clearFault_inputs (s : State) : (clearFault s).inputs = s.inputs := rfl
@[simp] theorem clearFault_freeIx (s : State) : (clearFault s).freeIx = s.freeIx := rfl

/-! ## latchThr (R27) -/

@[simp] theorem latchThr_chip (s : State) : (latchThr s).chip = s.chip := by simp only [latchThr]
@[simp] theorem latchThr_cfg (s : State) : (latchThr s).cfg = s.cfg := by simp only [State.cfg, latchThr]
@[simp] theorem latchThr_ctrl (s : State) : (latchThr s).ctrl = s.ctrl := by simp only [latchThr]
@[simp] theorem latchThr_thrY (s : State) : (latchThr s).thrY = s.thrY := by simp only [latchThr]
@[simp] theorem latchThr_thrU (s : State) : (latchThr s).thrU = s.thrU := by simp only [latchThr]
@[simp] theorem latchThr_thrV (s : State) : (latchThr s).thrV = s.thrV := by simp only [latchThr]
@[simp] theorem latchThr_thrA (s : State) : (latchThr s).thrA = s.thrA := by simp only [latchThr]
@[simp] theorem latchThr_opa (s : State) : (latchThr s).opa = s.opa := by simp only [latchThr]
@[simp] theorem latchThr_opb (s : State) : (latchThr s).opb = s.opb := by simp only [latchThr]
@[simp] theorem latchThr_opc (s : State) : (latchThr s).opc = s.opc := by simp only [latchThr]
@[simp] theorem latchThr_result (s : State) : (latchThr s).result = s.result := by simp only [latchThr]
@[simp] theorem latchThr_srcBase (s : State) : (latchThr s).srcBase = s.srcBase := by simp only [latchThr]
@[simp] theorem latchThr_srcLen (s : State) : (latchThr s).srcLen = s.srcLen := by simp only [latchThr]
@[simp] theorem latchThr_dstBase (s : State) : (latchThr s).dstBase = s.dstBase := by simp only [latchThr]
@[simp] theorem latchThr_dstLen (s : State) : (latchThr s).dstLen = s.dstLen := by simp only [latchThr]
@[simp] theorem latchThr_width (s : State) : (latchThr s).width = s.width := by simp only [latchThr]
@[simp] theorem latchThr_height (s : State) : (latchThr s).height = s.height := by simp only [latchThr]
@[simp] theorem latchThr_nb (s : State) : (latchThr s).nb = s.nb := by simp only [latchThr]
@[simp] theorem latchThr_out (s : State) : (latchThr s).out = s.out := by simp only [latchThr]
@[simp] theorem latchThr_lutValid (s : State) : (latchThr s).lutValid = s.lutValid := by simp only [latchThr]
@[simp] theorem latchThr_fault (s : State) : (latchThr s).fault = s.fault := by simp only [latchThr]
@[simp] theorem latchThr_faultCode (s : State) : (latchThr s).faultCode = s.faultCode := by simp only [latchThr]
@[simp] theorem latchThr_eff (s : State) : (latchThr s).eff = effOf s := by simp only [latchThr]
@[simp] theorem latchThr_latch (s : State) : (latchThr s).latch = s.latch := by simp only [latchThr]
@[simp] theorem latchThr_mem (s : State) : (latchThr s).mem = s.mem := by simp only [latchThr]
@[simp] theorem latchThr_lastRead (s : State) : (latchThr s).lastRead = s.lastRead := by simp only [latchThr]
@[simp] theorem latchThr_inputs (s : State) : (latchThr s).inputs = s.inputs := by simp only [latchThr]
@[simp] theorem latchThr_freeIx (s : State) : (latchThr s).freeIx = s.freeIx := by simp only [latchThr]

/-! ## respond (R112) -/

@[simp] theorem respond_chip (v : Word) (s : State) : (respond v s).chip = s.chip := rfl
@[simp] theorem respond_cfg (v : Word) (s : State) : (respond v s).cfg = s.cfg := rfl
@[simp] theorem respond_ctrl (v : Word) (s : State) : (respond v s).ctrl = s.ctrl := rfl
@[simp] theorem respond_thrY (v : Word) (s : State) : (respond v s).thrY = s.thrY := rfl
@[simp] theorem respond_thrU (v : Word) (s : State) : (respond v s).thrU = s.thrU := rfl
@[simp] theorem respond_thrV (v : Word) (s : State) : (respond v s).thrV = s.thrV := rfl
@[simp] theorem respond_thrA (v : Word) (s : State) : (respond v s).thrA = s.thrA := rfl
@[simp] theorem respond_opa (v : Word) (s : State) : (respond v s).opa = s.opa := rfl
@[simp] theorem respond_opb (v : Word) (s : State) : (respond v s).opb = s.opb := rfl
@[simp] theorem respond_opc (v : Word) (s : State) : (respond v s).opc = s.opc := rfl
@[simp] theorem respond_result (v : Word) (s : State) : (respond v s).result = s.result := rfl
@[simp] theorem respond_srcBase (v : Word) (s : State) : (respond v s).srcBase = s.srcBase := rfl
@[simp] theorem respond_srcLen (v : Word) (s : State) : (respond v s).srcLen = s.srcLen := rfl
@[simp] theorem respond_dstBase (v : Word) (s : State) : (respond v s).dstBase = s.dstBase := rfl
@[simp] theorem respond_dstLen (v : Word) (s : State) : (respond v s).dstLen = s.dstLen := rfl
@[simp] theorem respond_width (v : Word) (s : State) : (respond v s).width = s.width := rfl
@[simp] theorem respond_height (v : Word) (s : State) : (respond v s).height = s.height := rfl
@[simp] theorem respond_nb (v : Word) (s : State) : (respond v s).nb = s.nb := rfl
@[simp] theorem respond_out (v : Word) (s : State) : (respond v s).out = s.out := rfl
@[simp] theorem respond_lutValid (v : Word) (s : State) : (respond v s).lutValid = s.lutValid := rfl
@[simp] theorem respond_fault (v : Word) (s : State) : (respond v s).fault = s.fault := rfl
@[simp] theorem respond_faultCode (v : Word) (s : State) : (respond v s).faultCode = s.faultCode := rfl
@[simp] theorem respond_eff (v : Word) (s : State) : (respond v s).eff = s.eff := rfl
@[simp] theorem respond_latch (v : Word) (s : State) : (respond v s).latch = s.latch := rfl
@[simp] theorem respond_mem (v : Word) (s : State) : (respond v s).mem = s.mem := rfl
@[simp] theorem respond_lastRead (v : Word) (s : State) : (respond v s).lastRead = v := rfl
@[simp] theorem respond_inputs (v : Word) (s : State) : (respond v s).inputs = s.inputs := rfl
@[simp] theorem respond_freeIx (v : Word) (s : State) : (respond v s).freeIx = s.freeIx := rfl

/-! ## putSub (R95) -/

@[simp] theorem putSub_chip (s : State) (c : Word) : (putSub s c).chip = s.chip := rfl
@[simp] theorem putSub_cfg (s : State) (c : Word) : (putSub s c).cfg = s.cfg := rfl
@[simp] theorem putSub_ctrl (s : State) (c : Word) : (putSub s c).ctrl = s.ctrl := rfl
@[simp] theorem putSub_thrY (s : State) (c : Word) : (putSub s c).thrY = s.thrY := rfl
@[simp] theorem putSub_thrU (s : State) (c : Word) : (putSub s c).thrU = s.thrU := rfl
@[simp] theorem putSub_thrV (s : State) (c : Word) : (putSub s c).thrV = s.thrV := rfl
@[simp] theorem putSub_thrA (s : State) (c : Word) : (putSub s c).thrA = s.thrA := rfl
@[simp] theorem putSub_opa (s : State) (c : Word) : (putSub s c).opa = s.opa := rfl
@[simp] theorem putSub_opb (s : State) (c : Word) : (putSub s c).opb = s.opb := rfl
@[simp] theorem putSub_opc (s : State) (c : Word) : (putSub s c).opc = s.opc := rfl
@[simp] theorem putSub_result (s : State) (c : Word) : (putSub s c).result = s.result := rfl
@[simp] theorem putSub_srcBase (s : State) (c : Word) : (putSub s c).srcBase = s.srcBase := rfl
@[simp] theorem putSub_srcLen (s : State) (c : Word) : (putSub s c).srcLen = s.srcLen := rfl
@[simp] theorem putSub_dstBase (s : State) (c : Word) : (putSub s c).dstBase = s.dstBase := rfl
@[simp] theorem putSub_dstLen (s : State) (c : Word) : (putSub s c).dstLen = s.dstLen := rfl
@[simp] theorem putSub_width (s : State) (c : Word) : (putSub s c).width = s.width := rfl
@[simp] theorem putSub_height (s : State) (c : Word) : (putSub s c).height = s.height := rfl
@[simp] theorem putSub_nb (s : State) (c : Word) : (putSub s c).nb = s.nb := rfl
@[simp] theorem putSub_out (s : State) (c : Word) : (putSub s c).out = s.out := rfl
@[simp] theorem putSub_lutValid (s : State) (c : Word) : (putSub s c).lutValid = s.lutValid := rfl
@[simp] theorem putSub_fault (s : State) (c : Word) : (putSub s c).fault = s.fault := rfl
@[simp] theorem putSub_faultCode (s : State) (c : Word) : (putSub s c).faultCode = s.faultCode := rfl
@[simp] theorem putSub_eff (s : State) (c : Word) : (putSub s c).eff = s.eff := rfl
@[simp] theorem putSub_mem (s : State) (c : Word) : (putSub s c).mem = s.mem := rfl
@[simp] theorem putSub_lastRead (s : State) (c : Word) : (putSub s c).lastRead = s.lastRead := rfl
@[simp] theorem putSub_inputs (s : State) (c : Word) : (putSub s c).inputs = s.inputs := rfl
@[simp] theorem putSub_freeIx (s : State) (c : Word) : (putSub s c).freeIx = s.freeIx := rfl

/-! ## nextSub (R95) -/

@[simp] theorem nextSub_chip (s : State) : (nextSub s).chip = s.chip := rfl
@[simp] theorem nextSub_cfg (s : State) : (nextSub s).cfg = s.cfg := rfl
@[simp] theorem nextSub_ctrl (s : State) : (nextSub s).ctrl = s.ctrl := rfl
@[simp] theorem nextSub_thrY (s : State) : (nextSub s).thrY = s.thrY := rfl
@[simp] theorem nextSub_thrU (s : State) : (nextSub s).thrU = s.thrU := rfl
@[simp] theorem nextSub_thrV (s : State) : (nextSub s).thrV = s.thrV := rfl
@[simp] theorem nextSub_thrA (s : State) : (nextSub s).thrA = s.thrA := rfl
@[simp] theorem nextSub_opa (s : State) : (nextSub s).opa = s.opa := rfl
@[simp] theorem nextSub_opb (s : State) : (nextSub s).opb = s.opb := rfl
@[simp] theorem nextSub_opc (s : State) : (nextSub s).opc = s.opc := rfl
@[simp] theorem nextSub_result (s : State) : (nextSub s).result = s.result := rfl
@[simp] theorem nextSub_srcBase (s : State) : (nextSub s).srcBase = s.srcBase := rfl
@[simp] theorem nextSub_srcLen (s : State) : (nextSub s).srcLen = s.srcLen := rfl
@[simp] theorem nextSub_dstBase (s : State) : (nextSub s).dstBase = s.dstBase := rfl
@[simp] theorem nextSub_dstLen (s : State) : (nextSub s).dstLen = s.dstLen := rfl
@[simp] theorem nextSub_width (s : State) : (nextSub s).width = s.width := rfl
@[simp] theorem nextSub_height (s : State) : (nextSub s).height = s.height := rfl
@[simp] theorem nextSub_nb (s : State) : (nextSub s).nb = s.nb := rfl
@[simp] theorem nextSub_out (s : State) : (nextSub s).out = s.out := rfl
@[simp] theorem nextSub_lutValid (s : State) : (nextSub s).lutValid = s.lutValid := rfl
@[simp] theorem nextSub_fault (s : State) : (nextSub s).fault = s.fault := rfl
@[simp] theorem nextSub_faultCode (s : State) : (nextSub s).faultCode = s.faultCode := rfl
@[simp] theorem nextSub_eff (s : State) : (nextSub s).eff = s.eff := rfl
@[simp] theorem nextSub_mem (s : State) : (nextSub s).mem = s.mem := rfl
@[simp] theorem nextSub_lastRead (s : State) : (nextSub s).lastRead = s.lastRead := rfl
@[simp] theorem nextSub_inputs (s : State) : (nextSub s).inputs = s.inputs := rfl
@[simp] theorem nextSub_freeIx (s : State) : (nextSub s).freeIx = s.freeIx := rfl

/-! ## raiseFault (R116) -/

@[simp] theorem raiseFault_chip (c : FaultCode) (s : State) : (raiseFault c s).chip = s.chip := by unfold raiseFault; split <;> rfl
@[simp] theorem raiseFault_cfg (c : FaultCode) (s : State) : (raiseFault c s).cfg = s.cfg := by unfold raiseFault; split <;> rfl
@[simp] theorem raiseFault_ctrl (c : FaultCode) (s : State) : (raiseFault c s).ctrl = s.ctrl := by unfold raiseFault; split <;> rfl
@[simp] theorem raiseFault_thrY (c : FaultCode) (s : State) : (raiseFault c s).thrY = s.thrY := by unfold raiseFault; split <;> rfl
@[simp] theorem raiseFault_thrU (c : FaultCode) (s : State) : (raiseFault c s).thrU = s.thrU := by unfold raiseFault; split <;> rfl
@[simp] theorem raiseFault_thrV (c : FaultCode) (s : State) : (raiseFault c s).thrV = s.thrV := by unfold raiseFault; split <;> rfl
@[simp] theorem raiseFault_thrA (c : FaultCode) (s : State) : (raiseFault c s).thrA = s.thrA := by unfold raiseFault; split <;> rfl
@[simp] theorem raiseFault_opa (c : FaultCode) (s : State) : (raiseFault c s).opa = s.opa := by unfold raiseFault; split <;> rfl
@[simp] theorem raiseFault_opb (c : FaultCode) (s : State) : (raiseFault c s).opb = s.opb := by unfold raiseFault; split <;> rfl
@[simp] theorem raiseFault_opc (c : FaultCode) (s : State) : (raiseFault c s).opc = s.opc := by unfold raiseFault; split <;> rfl
@[simp] theorem raiseFault_result (c : FaultCode) (s : State) : (raiseFault c s).result = s.result := by unfold raiseFault; split <;> rfl
@[simp] theorem raiseFault_srcBase (c : FaultCode) (s : State) : (raiseFault c s).srcBase = s.srcBase := by unfold raiseFault; split <;> rfl
@[simp] theorem raiseFault_srcLen (c : FaultCode) (s : State) : (raiseFault c s).srcLen = s.srcLen := by unfold raiseFault; split <;> rfl
@[simp] theorem raiseFault_dstBase (c : FaultCode) (s : State) : (raiseFault c s).dstBase = s.dstBase := by unfold raiseFault; split <;> rfl
@[simp] theorem raiseFault_dstLen (c : FaultCode) (s : State) : (raiseFault c s).dstLen = s.dstLen := by unfold raiseFault; split <;> rfl
@[simp] theorem raiseFault_width (c : FaultCode) (s : State) : (raiseFault c s).width = s.width := by unfold raiseFault; split <;> rfl
@[simp] theorem raiseFault_height (c : FaultCode) (s : State) : (raiseFault c s).height = s.height := by unfold raiseFault; split <;> rfl
@[simp] theorem raiseFault_nb (c : FaultCode) (s : State) : (raiseFault c s).nb = s.nb := by unfold raiseFault; split <;> rfl
@[simp] theorem raiseFault_out (c : FaultCode) (s : State) : (raiseFault c s).out = s.out := by unfold raiseFault; split <;> rfl
@[simp] theorem raiseFault_lutValid (c : FaultCode) (s : State) : (raiseFault c s).lutValid = s.lutValid := by unfold raiseFault; split <;> rfl
@[simp] theorem raiseFault_eff (c : FaultCode) (s : State) : (raiseFault c s).eff = s.eff := by unfold raiseFault; split <;> rfl
@[simp] theorem raiseFault_latch (c : FaultCode) (s : State) : (raiseFault c s).latch = s.latch := by unfold raiseFault; split <;> rfl
@[simp] theorem raiseFault_mem (c : FaultCode) (s : State) : (raiseFault c s).mem = s.mem := by unfold raiseFault; split <;> rfl
@[simp] theorem raiseFault_lastRead (c : FaultCode) (s : State) : (raiseFault c s).lastRead = s.lastRead := by unfold raiseFault; split <;> rfl
@[simp] theorem raiseFault_inputs (c : FaultCode) (s : State) : (raiseFault c s).inputs = s.inputs := by unfold raiseFault; split <;> rfl
@[simp] theorem raiseFault_freeIx (c : FaultCode) (s : State) : (raiseFault c s).freeIx = s.freeIx := by unfold raiseFault; split <;> rfl

/-! ## resetInput (R127) -/

@[simp] theorem resetInput_chip (s : State) : (resetInput s).chip = s.chip := rfl
@[simp] theorem resetInput_cfg (s : State) : (resetInput s).cfg = s.cfg := rfl
@[simp] theorem resetInput_ctrl (s : State) : (resetInput s).ctrl = 0 := rfl
@[simp] theorem resetInput_thrY (s : State) : (resetInput s).thrY = 48 := rfl
@[simp] theorem resetInput_thrU (s : State) : (resetInput s).thrU = 7 := rfl
@[simp] theorem resetInput_thrV (s : State) : (resetInput s).thrV = 6 := rfl
@[simp] theorem resetInput_thrA (s : State) : (resetInput s).thrA = 0 := rfl
@[simp] theorem resetInput_opa (s : State) : (resetInput s).opa = 0 := rfl
@[simp] theorem resetInput_opb (s : State) : (resetInput s).opb = 0 := rfl
@[simp] theorem resetInput_opc (s : State) : (resetInput s).opc = 0 := rfl
@[simp] theorem resetInput_result (s : State) : (resetInput s).result = 0 := rfl
@[simp] theorem resetInput_srcBase (s : State) : (resetInput s).srcBase = 0 := rfl
@[simp] theorem resetInput_srcLen (s : State) : (resetInput s).srcLen = 0 := rfl
@[simp] theorem resetInput_dstBase (s : State) : (resetInput s).dstBase = 0 := rfl
@[simp] theorem resetInput_dstLen (s : State) : (resetInput s).dstLen = 0 := rfl
@[simp] theorem resetInput_width (s : State) : (resetInput s).width = 0 := rfl
@[simp] theorem resetInput_height (s : State) : (resetInput s).height = 0 := rfl
@[simp] theorem resetInput_nb (s : State) : (resetInput s).nb = Vector.replicate 9 0 := rfl
@[simp] theorem resetInput_out (s : State) : (resetInput s).out = Vector.replicate 16 0 := rfl
@[simp] theorem resetInput_lutValid (s : State) : (resetInput s).lutValid = false := rfl
@[simp] theorem resetInput_fault (s : State) : (resetInput s).fault = false := rfl
@[simp] theorem resetInput_faultCode (s : State) : (resetInput s).faultCode = 0 := rfl
@[simp] theorem resetInput_eff (s : State) : (resetInput s).eff = EffThr.zero := rfl
@[simp] theorem resetInput_latch (s : State) : (resetInput s).latch = Latch.zero := rfl
@[simp] theorem resetInput_mem (s : State) : (resetInput s).mem = s.mem := rfl
@[simp] theorem resetInput_lastRead (s : State) : (resetInput s).lastRead = s.lastRead := rfl
@[simp] theorem resetInput_inputs (s : State) : (resetInput s).inputs = s.inputs := rfl
@[simp] theorem resetInput_freeIx (s : State) : (resetInput s).freeIx = s.freeIx := rfl

/-! ## magnifyPixel (R102) -/

@[simp] theorem magnifyPixel_chip (s : State) (x y : Nat) : (magnifyPixel s x y).chip = s.chip := by simp only [magnifyPixel]
@[simp] theorem magnifyPixel_cfg (s : State) (x y : Nat) : (magnifyPixel s x y).cfg = s.cfg := by simp only [State.cfg, magnifyPixel]
@[simp] theorem magnifyPixel_ctrl (s : State) (x y : Nat) : (magnifyPixel s x y).ctrl = s.ctrl := by simp only [magnifyPixel]
@[simp] theorem magnifyPixel_thrY (s : State) (x y : Nat) : (magnifyPixel s x y).thrY = s.thrY := by simp only [magnifyPixel]
@[simp] theorem magnifyPixel_thrU (s : State) (x y : Nat) : (magnifyPixel s x y).thrU = s.thrU := by simp only [magnifyPixel]
@[simp] theorem magnifyPixel_thrV (s : State) (x y : Nat) : (magnifyPixel s x y).thrV = s.thrV := by simp only [magnifyPixel]
@[simp] theorem magnifyPixel_thrA (s : State) (x y : Nat) : (magnifyPixel s x y).thrA = s.thrA := by simp only [magnifyPixel]
@[simp] theorem magnifyPixel_opa (s : State) (x y : Nat) : (magnifyPixel s x y).opa = s.opa := by simp only [magnifyPixel]
@[simp] theorem magnifyPixel_opb (s : State) (x y : Nat) : (magnifyPixel s x y).opb = s.opb := by simp only [magnifyPixel]
@[simp] theorem magnifyPixel_opc (s : State) (x y : Nat) : (magnifyPixel s x y).opc = s.opc := by simp only [magnifyPixel]
@[simp] theorem magnifyPixel_result (s : State) (x y : Nat) : (magnifyPixel s x y).result = s.result := by simp only [magnifyPixel]
@[simp] theorem magnifyPixel_srcBase (s : State) (x y : Nat) : (magnifyPixel s x y).srcBase = s.srcBase := by simp only [magnifyPixel]
@[simp] theorem magnifyPixel_srcLen (s : State) (x y : Nat) : (magnifyPixel s x y).srcLen = s.srcLen := by simp only [magnifyPixel]
@[simp] theorem magnifyPixel_dstBase (s : State) (x y : Nat) : (magnifyPixel s x y).dstBase = s.dstBase := by simp only [magnifyPixel]
@[simp] theorem magnifyPixel_dstLen (s : State) (x y : Nat) : (magnifyPixel s x y).dstLen = s.dstLen := by simp only [magnifyPixel]
@[simp] theorem magnifyPixel_width (s : State) (x y : Nat) : (magnifyPixel s x y).width = s.width := by simp only [magnifyPixel]
@[simp] theorem magnifyPixel_height (s : State) (x y : Nat) : (magnifyPixel s x y).height = s.height := by simp only [magnifyPixel]
@[simp] theorem magnifyPixel_nb (s : State) (x y : Nat) : (magnifyPixel s x y).nb = s.nb := by simp only [magnifyPixel]
@[simp] theorem magnifyPixel_out (s : State) (x y : Nat) : (magnifyPixel s x y).out = s.out := by simp only [magnifyPixel]
@[simp] theorem magnifyPixel_lutValid (s : State) (x y : Nat) : (magnifyPixel s x y).lutValid = s.lutValid := by simp only [magnifyPixel]
@[simp] theorem magnifyPixel_fault (s : State) (x y : Nat) : (magnifyPixel s x y).fault = s.fault := by simp only [magnifyPixel]
@[simp] theorem magnifyPixel_faultCode (s : State) (x y : Nat) : (magnifyPixel s x y).faultCode = s.faultCode := by simp only [magnifyPixel]
@[simp] theorem magnifyPixel_eff (s : State) (x y : Nat) : (magnifyPixel s x y).eff = s.eff := by simp only [magnifyPixel]
@[simp] theorem magnifyPixel_latch (s : State) (x y : Nat) : (magnifyPixel s x y).latch = pixelLatch s x y := by simp only [magnifyPixel]
@[simp] theorem magnifyPixel_mem (s : State) (x y : Nat) : (magnifyPixel s x y).mem = pixelMemory s x y := by simp only [magnifyPixel]
@[simp] theorem magnifyPixel_lastRead (s : State) (x y : Nat) : (magnifyPixel s x y).lastRead = s.lastRead := by simp only [magnifyPixel]
@[simp] theorem magnifyPixel_inputs (s : State) (x y : Nat) : (magnifyPixel s x y).inputs = s.inputs := by simp only [magnifyPixel]
@[simp] theorem magnifyPixel_freeIx (s : State) (x y : Nat) : (magnifyPixel s x y).freeIx = s.freeIx := by simp only [magnifyPixel]

/-! ## writeStatus (R24) -/

@[simp] theorem writeStatus_chip (v : Word) (s : State) : (writeStatus v s).chip = s.chip := by unfold writeStatus; split <;> rfl
@[simp] theorem writeStatus_cfg (v : Word) (s : State) : (writeStatus v s).cfg = s.cfg := by unfold writeStatus; split <;> rfl
@[simp] theorem writeStatus_ctrl (v : Word) (s : State) : (writeStatus v s).ctrl = s.ctrl := by unfold writeStatus; split <;> rfl
@[simp] theorem writeStatus_thrY (v : Word) (s : State) : (writeStatus v s).thrY = s.thrY := by unfold writeStatus; split <;> rfl
@[simp] theorem writeStatus_thrU (v : Word) (s : State) : (writeStatus v s).thrU = s.thrU := by unfold writeStatus; split <;> rfl
@[simp] theorem writeStatus_thrV (v : Word) (s : State) : (writeStatus v s).thrV = s.thrV := by unfold writeStatus; split <;> rfl
@[simp] theorem writeStatus_thrA (v : Word) (s : State) : (writeStatus v s).thrA = s.thrA := by unfold writeStatus; split <;> rfl
@[simp] theorem writeStatus_opa (v : Word) (s : State) : (writeStatus v s).opa = s.opa := by unfold writeStatus; split <;> rfl
@[simp] theorem writeStatus_opb (v : Word) (s : State) : (writeStatus v s).opb = s.opb := by unfold writeStatus; split <;> rfl
@[simp] theorem writeStatus_opc (v : Word) (s : State) : (writeStatus v s).opc = s.opc := by unfold writeStatus; split <;> rfl
@[simp] theorem writeStatus_result (v : Word) (s : State) : (writeStatus v s).result = s.result := by unfold writeStatus; split <;> rfl
@[simp] theorem writeStatus_srcBase (v : Word) (s : State) : (writeStatus v s).srcBase = s.srcBase := by unfold writeStatus; split <;> rfl
@[simp] theorem writeStatus_srcLen (v : Word) (s : State) : (writeStatus v s).srcLen = s.srcLen := by unfold writeStatus; split <;> rfl
@[simp] theorem writeStatus_dstBase (v : Word) (s : State) : (writeStatus v s).dstBase = s.dstBase := by unfold writeStatus; split <;> rfl
@[simp] theorem writeStatus_dstLen (v : Word) (s : State) : (writeStatus v s).dstLen = s.dstLen := by unfold writeStatus; split <;> rfl
@[simp] theorem writeStatus_width (v : Word) (s : State) : (writeStatus v s).width = s.width := by unfold writeStatus; split <;> rfl
@[simp] theorem writeStatus_height (v : Word) (s : State) : (writeStatus v s).height = s.height := by unfold writeStatus; split <;> rfl
@[simp] theorem writeStatus_nb (v : Word) (s : State) : (writeStatus v s).nb = s.nb := by unfold writeStatus; split <;> rfl
@[simp] theorem writeStatus_out (v : Word) (s : State) : (writeStatus v s).out = s.out := by unfold writeStatus; split <;> rfl
@[simp] theorem writeStatus_lutValid (v : Word) (s : State) : (writeStatus v s).lutValid = s.lutValid := by unfold writeStatus; split <;> rfl
@[simp] theorem writeStatus_eff (v : Word) (s : State) : (writeStatus v s).eff = s.eff := by unfold writeStatus; split <;> rfl
@[simp] theorem writeStatus_latch (v : Word) (s : State) : (writeStatus v s).latch = s.latch := by unfold writeStatus; split <;> rfl
@[simp] theorem writeStatus_mem (v : Word) (s : State) : (writeStatus v s).mem = s.mem := by unfold writeStatus; split <;> rfl
@[simp] theorem writeStatus_lastRead (v : Word) (s : State) : (writeStatus v s).lastRead = s.lastRead := by unfold writeStatus; split <;> rfl
@[simp] theorem writeStatus_inputs (v : Word) (s : State) : (writeStatus v s).inputs = s.inputs := by unfold writeStatus; split <;> rfl
@[simp] theorem writeStatus_freeIx (v : Word) (s : State) : (writeStatus v s).freeIx = s.freeIx := by unfold writeStatus; split <;> rfl

/-! ## What the updates write -/

@[simp] theorem putSub_latch_out (s : State) (c : Word) :
    (putSub s c).latch.out = s.latch.out.set s.latch.sub.toNat c s.latch.sub.isLt := rfl
@[simp] theorem putSub_latch_w (s : State) (c : Word) : (putSub s c).latch.w = s.latch.w := rfl
@[simp] theorem putSub_latch_sub (s : State) (c : Word) : (putSub s c).latch.sub = s.latch.sub := rfl
@[simp] theorem nextSub_latch_out (s : State) : (nextSub s).latch.out = s.latch.out := rfl
@[simp] theorem nextSub_latch_w (s : State) : (nextSub s).latch.w = s.latch.w := rfl
@[simp] theorem nextSub_latch_sub (s : State) : (nextSub s).latch.sub = s.latch.sub + 1 := rfl
@[simp] theorem raiseFault_fault (c : FaultCode) (s : State) : (raiseFault c s).fault = true := by
  unfold raiseFault; split <;> simp_all
@[simp] theorem raiseFault_of_fault (c : FaultCode) (s : State) (h : s.fault = true) : raiseFault c s = s := by
  simp [raiseFault, h]
theorem raiseFault_of_no_fault (c : FaultCode) (s : State) (h : s.fault = false) :
    raiseFault c s = { s with fault := true, faultCode := faultNumber c } := by simp [raiseFault, h]

/-! ## Operations that read only CTRL, the parameters or the thresholds -/

@[simp] theorem latchThr_factor (s : State) : factor (latchThr s) = factor s := by simp [factor, factorSel]
@[simp] theorem latchThr_table (s : State) : table (latchThr s) = table s := by simp [table, factorSel]
@[simp] theorem latchThr_effOf (s : State) : effOf (latchThr s) = effOf s := by simp [effOf]
@[simp] theorem magnifyPixel_factor (s : State) (x y : Nat) : factor (magnifyPixel s x y) = factor s := by simp [factor, factorSel, magnifyPixel]
@[simp] theorem magnifyPixel_table (s : State) (x y : Nat) : table (magnifyPixel s x y) = table s := by simp [table, factorSel, magnifyPixel]
@[simp] theorem magnifyPixel_widthOf (s : State) (x y : Nat) : widthOf (magnifyPixel s x y) = widthOf s := by simp only [widthOf, magnifyPixel]
@[simp] theorem magnifyPixel_heightOf (s : State) (x y : Nat) : heightOf (magnifyPixel s x y) = heightOf s := by simp only [heightOf, magnifyPixel]

end Sys2Proof.Machine
end

