-- ==== Sys2Proof/Laws/Ops.lean ====
section
/-!
SUPPORT. One lemma per shared operation that says once everything it can do: if it answers next t, then one of these cases
holds. Provers cite these instead of unfolding the operation.
-/

namespace Sys2Proof.Machine

@[simp] theorem faulted_eq (c : FaultCode) (s : State) : faulted c s = .next (raiseFault c s) := rfl

/-! ## Running a command -/

theorem command_of_fault (s : State) (run : Host.Outcome State Fault Refusal) (h : s.fault = true) :
    command s run = .next s := by simp [command, h]

theorem command_of_no_fault (s : State) (run : Host.Outcome State Fault Refusal) (h : s.fault = false) :
    command s run = run := by simp [command, h]

/-- A command ignored because a fault is pending, or run. -/
theorem command_next {s t : State} {run : Host.Outcome State Fault Refusal} (h : command s run = .next t) :
    (s.fault = true ∧ t = s) ∨ (s.fault = false ∧ run = .next t) := by
  unfold command at h
  split at h
  · next hf => exact .inl ⟨hf, by injection h with h; exact h.symm⟩
  · next hf => exact .inr ⟨by simpa using hf, h⟩

theorem lutCommand_of_ready (s : State) (run : Host.Outcome State Fault Refusal) (h : s.fault = false)
    (hl : s.lutValid = true) : lutCommand s run = run := by simp [lutCommand, command, h, hl]

theorem lutCommand_of_not_ready (s : State) (run : Host.Outcome State Fault Refusal) (h : s.fault = false)
    (hl : s.lutValid = false) : lutCommand s run = .next (raiseFault .lutNotReady s) := by
  simp [lutCommand, command, h, hl]

/-- A command of the LUT is ignored, raises LUT_NOT_READY, or runs. -/
theorem lutCommand_next {s t : State} {run : Host.Outcome State Fault Refusal} (h : lutCommand s run = .next t) :
    (s.fault = true ∧ t = s) ∨
    (s.fault = false ∧ s.lutValid = false ∧ t = raiseFault .lutNotReady s) ∨
    (s.fault = false ∧ s.lutValid = true ∧ run = .next t) := by
  rcases command_next h with h | ⟨hf, h⟩
  · exact .inl h
  · split at h
    · next hl => exact .inr (.inr ⟨hf, hl, h⟩)
    · next hl =>
      rw [faulted_eq] at h
      exact .inr (.inl ⟨hf, by simpa using hl, by injection h with h; exact h.symm⟩)

/-! ## The shared meanings -/

/-- A MIX command is ignored, or writes RESULT only. -/
theorem mixCommand_next {f : MixFn} {s t : State} (h : mixCommand f s = .next t) :
    (s.fault = true ∧ t = s) ∨ (s.fault = false ∧ t = { s with result := mix s.cfg f s.opa s.opb s.opc }) := by
  rcases command_next h with h | ⟨hf, h⟩
  · exact .inl h
  · exact .inr ⟨hf, by injection h with h; exact h.symm⟩

/-- A single recipe writes the current sub-pixel of the latch only. -/
theorem recipeStep_next {r : BitVec 16} {s t : State} (h : recipeStep r s = .next t) :
    recipeWf r = true ∧ t = putSub s (applyRecipe s.cfg r s.latch.w) := by
  unfold recipeStep at h
  split at h
  · next hr => exact ⟨hr, by injection h with h; exact h.symm⟩
  · cases h

/-- A single entry raises LUT_NOT_READY, or writes the current sub-pixel of the latch and goes on to the next. -/
theorem entryStep_next {e : BitVec 64} {s t : State} (h : entryStep e s = .next t) :
    entryWf e = true ∧
    ((entryIsCond e = true ∧ s.lutValid = false ∧ t = raiseFault .lutNotReady s) ∨
     ((entryIsCond e = false ∨ s.lutValid = true) ∧
       t = nextSub (putSub s (applyRecipe s.cfg (resolveEntry s.cfg s.eff e s.latch.w) s.latch.w)))) := by
  unfold entryStep at h
  split at h
  · next he =>
    refine ⟨he, ?_⟩
    split at h
    · next hc =>
      rw [faulted_eq] at h
      simp only [Bool.and_eq_true, Bool.not_eq_true'] at hc
      exact .inl ⟨hc.1, hc.2, by injection h with h; exact h.symm⟩
    · next hc =>
      refine .inr ⟨?_, by injection h with h; exact h.symm⟩
      cases hcond : entryIsCond e <;> cases hl : s.lutValid <;> simp_all
  · cases h

/-- MAGNIFY is ignored, raises one of its faults, has nothing to do, or runs the whole image. -/
theorem execMagnify_next {s t : State} (h : execMagnify s = .next t) :
    (s.fault = true ∧ t = s) ∨
    (s.fault = false ∧ s.lutValid = false ∧ t = raiseFault .lutNotReady s) ∨
    (s.fault = false ∧ s.lutValid = true ∧ ∃ c, magnifyCheck s = some c ∧ t = raiseFault c s) ∨
    (s.fault = false ∧ s.lutValid = true ∧ magnifyCheck s = none ∧ sourceExtent s = 0 ∧ t = s) ∨
    (s.fault = false ∧ s.lutValid = true ∧ magnifyCheck s = none ∧ sourceExtent s ≠ 0 ∧
      t = magnifyImage (latchThr s)) := by
  rcases lutCommand_next h with h | h | ⟨hf, hl, h⟩
  · exact .inl h
  · exact .inr (.inl h)
  · refine .inr (.inr ?_)
    split at h
    · next c hc =>
      rw [faulted_eq] at h
      exact .inl ⟨hf, hl, c, hc, by injection h with h; exact h.symm⟩
    · next hc =>
      refine .inr ?_
      split at h
      · next he => exact .inl ⟨hf, hl, hc, he, by injection h with h; exact h.symm⟩
      · next he => exact .inr ⟨hf, hl, hc, he, by injection h with h; exact h.symm⟩

/-- A CMD write is ignored, raises ILLEGAL_CMD, or runs the command its word decodes to. -/
theorem writeCmd_next {v : Word} {s t : State} (h : writeCmd v s = .next t) :
    (s.fault = true ∧ t = s) ∨
    (s.fault = false ∧ (∃ r, decodeCmd v = .error r) ∧ t = raiseFault .illegalCmd s) ∨
    (s.fault = false ∧ ∃ i, decodeCmd v = .ok i ∧ runCommand i s = .next t) := by
  rcases command_next h with h | ⟨hf, h⟩
  · exact .inl h
  · split at h
    · next r hr =>
      rw [faulted_eq] at h
      exact .inr (.inl ⟨hf, ⟨r, hr⟩, by injection h with h; exact h.symm⟩)
    · next i hi => exact .inr (.inr ⟨hf, i, hi, h⟩)

/-- A host write raises BAD_REG, runs a CMD write, acts on STATUS, or stores to an RW register. -/
theorem execWr_next {index : BitVec 8} {v : Word} {s t : State} (h : execWr index v s = .next t) :
    (t = raiseFault .badReg s ∧ (regOf index = none ∨ ∃ r, regOf index = some r ∧ isRw r = false)) ∨
    (regOf index = some .cmd ∧ writeCmd v s = .next t) ∨
    (regOf index = some .status ∧ t = writeStatus v s) ∨
    (∃ r, regOf index = some r ∧ isRw r = true ∧ t = storeReg r v s) := by
  unfold execWr at h
  split at h
  · next hr =>
    rw [faulted_eq] at h
    exact .inl ⟨by injection h with h; exact h.symm, .inl hr⟩
  · next hr => exact .inr (.inl ⟨hr, h⟩)
  · next hr => exact .inr (.inr (.inl ⟨hr, by injection h with h; exact h.symm⟩))
  · next r _ _ hr =>
    split at h
    · next hw => exact .inr (.inr (.inr ⟨r, hr, hw, by injection h with h; exact h.symm⟩))
    · next hw =>
      rw [faulted_eq] at h
      exact .inl ⟨by injection h with h; exact h.symm, .inr ⟨r, hr, by simpa using hw⟩⟩

/-- A host read answers a next state always: the register's value, or 0 with BAD_REG. -/
theorem execRd_next (index : BitVec 8) (s : State) :
    (execRd index s = .next (respond 0 (raiseFault .badReg s)) ∧ (regOf index = none ∨ regOf index = some .cmd)) ∨
    (∃ r, regOf index = some r ∧ r ≠ .cmd ∧ execRd index s = .next (respond (readReg s r) s)) := by
  unfold execRd
  cases hr : regOf index with
  | none => exact .inl ⟨rfl, .inl rfl⟩
  | some r => cases r <;> first | exact .inl ⟨rfl, .inr rfl⟩ | exact .inr ⟨_, rfl, by simp, rfl⟩

/-! ## Instantiation -/

/-- instantiate gives the reset state of a legal instance, and refuses the rest. -/
theorem instantiate_cases (p : Params) :
    (∃ h : p.wf = true, instantiate p = .next (State.resetOf ⟨p, h⟩)) ∨
    (p.tablesWf = false ∧ instantiate p = .refused .malformedTable) ∨
    (p.tablesWf = true ∧ p.memoryOk = false ∧ instantiate p = .refused .badMemorySize) := by
  by_cases h : p.wf = true
  · exact .inl ⟨h, by simp [instantiate, Chip.ofParams, h]⟩
  · have hn : Chip.ofParams p = none := by simp [Chip.ofParams, h]
    cases ht : p.tablesWf
    · exact .inr (.inl ⟨rfl, by simp [instantiate, hn, ht]⟩)
    · exact .inr (.inr ⟨rfl, by simpa [Params.wf, ht] using h, by simp [instantiate, hn, ht]⟩)

/-- State.reset is what instantiating its parameters gives. -/
theorem instantiate_params : instantiate Config.params = .next State.reset := by
  simp [instantiate, Chip.ofParams, Config.params_wf, State.reset, Config.chip]

/-! ## Inputs -/

/-- A host store writes a word that exists. -/
theorem runStore_next {a : BitVec 32} {v : Word} {s t : State} (h : runStore a v s = .next t) :
    a.toNat < s.cfg.memWords ∧ t = { s with mem := s.mem.writeWord s.cfg.byteOrder a.toNat v } := by
  unfold runStore at h
  split at h
  · next ha => exact ⟨ha, by injection h with h; exact h.symm⟩
  · cases h

/-- A cut transaction leaves the reset state and one of the memories R128 allows. -/
theorem runCut_next {c : BitVec 41} {s t : State} (h : runCut c s = .next t) :
    ∃ u, runBus c s = .next u ∧
      t = afterCut c s (if startsMagnify c s then cutMemory s u.mem else s.mem) := by
  unfold runCut at h
  split at h
  · next u hu => exact ⟨u, hu, by injection h with h; exact h.symm⟩
  · cases h
  · cases h

/-- A single entry from the inputs is decoded and executed. -/
theorem runEntry_next {e : BitVec 64} {s t : State} (h : runEntry e s = .next t) :
    ∃ i, decodeEntry e = .ok i ∧ exec i s = .next t := by
  unfold runEntry at h
  split at h
  · next i hi => exact ⟨i, hi, h⟩
  · cases h

/-- A single recipe from the inputs is decoded and executed. -/
theorem runRecipe_next {r : BitVec 16} {s t : State} (h : runRecipe r s = .next t) :
    ∃ i, decodeRecipe r = .ok i ∧ exec i s = .next t := by
  unfold runRecipe at h
  split at h
  · next i hi => exact ⟨i, hi, h⟩
  · cases h

/-- What one step can do. -/
theorem step_next {s t : State} (h : step s = .next t) :
    (s.inputs = [] ∧ t = s) ∨
    (∃ i rest, s.inputs = i :: rest ∧ runInput i { s with inputs := rest } = .next t) := by
  unfold step takeInput at h
  split at h
  · next hi => exact .inl ⟨hi, by injection h with h; exact h.symm⟩
  · next i rest hi => exact .inr ⟨i, rest, hi, h⟩

/-- The commands are the instructions exec runs as runCommand does. -/
theorem runCommand_eq_exec {v : BitVec 32} {i : Instr} (s : State) (h : decodeCmd v = .ok i) :
    runCommand i s = exec i s := by
  unfold decodeCmd at h
  split at h
  · cases h
  · split at h
    · cases h
    · next j hj =>
      split at h
      · cases h
      · injection h with h
        subst h
        unfold opcodeMap at hj
        split at hj <;> first | (injection hj with hj; subst hj; rfl) | cases hj

end Sys2Proof.Machine
end

