-- ==== Sys2Proof/Laws/Driver.lean ====
section
/-!
SUPPORT. MAGNIFY's loops: what every pixel keeps the image keeps, only the latch and the memory change, the loops' operands
do not, and the memory keeps its canonical form. Also the entries a well-formed table holds.
-/

namespace Sys2Proof.Machine

/-! ## The loops -/

/-- What one source pixel of the image keeps, a row keeps. -/
theorem magnifyRow_keeps (P : State → Prop) (s : State) (y : Nat) (h : P s)
    (hp : ∀ u x, P u → P (magnifyPixel u x y)) : P (magnifyRow s y) := by
  unfold magnifyRow
  generalize List.range (widthOf s) = l
  induction l generalizing s with
  | nil => exact h
  | cons x rest ih => exact ih _ (hp s x h)

/-- What one source pixel keeps, the image keeps. -/
theorem magnifyImage_keeps (P : State → Prop) (s : State) (h : P s)
    (hp : ∀ u x y, P u → P (magnifyPixel u x y)) : P (magnifyImage s) := by
  unfold magnifyImage
  generalize List.range (heightOf s) = l
  induction l generalizing s with
  | nil => exact h
  | cons y rest ih => exact ih _ (magnifyRow_keeps P s y h fun u x hu => hp u x y hu)

/-- MAGNIFY's loops change the latch and the memory only. -/
theorem magnifyImage_eq (s : State) :
    magnifyImage s = { s with latch := (magnifyImage s).latch, mem := (magnifyImage s).mem } := by
  refine magnifyImage_keeps (fun u => u = { s with latch := u.latch, mem := u.mem }) s rfl ?_
  intro u x y hu
  have h : magnifyPixel u x y = { u with latch := pixelLatch u x y, mem := pixelMemory u x y } := by
    simp only [magnifyPixel]
  rw [h]
  generalize pixelLatch u x y = l
  generalize pixelMemory u x y = m
  rw [hu]

/-- MAGNIFY's loops keep the memory's canonical form. -/
theorem magnifyImage_wf (s : State) (h : s.mem.wf = true) : (magnifyImage s).mem.wf = true :=
  magnifyImage_keeps (fun u => u.mem.wf = true) s h fun u x y hu => by
    rw [magnifyPixel_mem]
    exact pixelMemory_wf u x y hu

/-! ## Tables -/

/-- Every entry a command reads from a well-formed table is well formed. -/
theorem entryAt_wf {n : Nat} {tab : List (BitVec 64)} (h : tableWf n tab = true) (q : BitVec 8) {k : Nat}
    (hk : k < n * n) : entryWf (entryAt tab n q k) = true := by
  simp only [tableWf, Bool.and_eq_true, beq_iff_eq, List.all_eq_true] at h
  have hlt : q.toNat * (n * n) + k < tab.length := by
    have hq := q.isLt
    calc q.toNat * (n * n) + k < q.toNat * (n * n) + n * n := by omega
      _ = (q.toNat + 1) * (n * n) := by ring
      _ ≤ 256 * (n * n) := Nat.mul_le_mul_right _ (by omega)
      _ = tab.length := h.1.symm
  rw [entryAt, List.getElem?_eq_getElem hlt, Option.getD_some]
  exact h.2 _ (List.getElem_mem hlt)

/-- The recipe the resolver selects from a well-formed entry is well formed. -/
theorem resolveEntry_wf {e : BitVec 64} (h : entryWf e = true) (p : Params) (t : EffThr) (w : Nbhd) :
    recipeWf (resolveEntry p t e w) = true := by
  simp only [entryWf, Bool.and_eq_true] at h
  unfold resolveEntry
  split
  · next hc =>
    rw [if_pos hc] at h
    simp only [Bool.and_eq_true] at h
    split
    · exact h.1.2
    · exact h.2.1.1
  · exact h.1.2

/-- The table of the current factor is well formed, in every state (R58). -/
theorem table_wf (s : State) : tableWf (factor s) (table s) = true := by
  have h := s.chip.legal
  simp only [Params.wf, Params.tablesWf, Bool.and_eq_true] at h
  unfold factor table
  split
  · exact h.1.2
  · exact h.1.1

end Sys2Proof.Machine
end

