-- ==== Sys2Proof/Laws/Encoding.lean ====
section
/-!
SUPPORT. The fields of the code words the encoder builds: each field of R53, R56, R57, R59 reads back from the word it was
put into.
-/

namespace Sys2Proof

/-! ## Command words (R53) -/

@[simp] theorem cmdOp_cmdWord (op pat : BitVec 8) : cmdOp (cmdWord op pat) = op := by
  apply BitVec.eq_of_getLsbD_eq; intro i hi
  simp only [cmdOp, cmdWord, BitVec.getLsbD_extractLsb', BitVec.getLsbD_append]
  interval_cases i <;> simp

@[simp] theorem cmdPat_cmdWord (op pat : BitVec 8) : cmdPat (cmdWord op pat) = pat := by
  apply BitVec.eq_of_getLsbD_eq; intro i hi
  simp only [cmdPat, cmdWord, BitVec.getLsbD_extractLsb', BitVec.getLsbD_append]
  interval_cases i <;> simp

@[simp] theorem cmdHigh_cmdWord (op pat : BitVec 8) : cmdHigh (cmdWord op pat) = 0 := by
  apply BitVec.eq_of_getLsbD_eq; intro i hi
  simp only [cmdHigh, cmdWord, BitVec.getLsbD_extractLsb', BitVec.getLsbD_append]
  interval_cases i <;> simp

/-- A command word is its OP and PAT, where its high bits are 0. -/
theorem cmdWord_fields (v : BitVec 32) (h : cmdHigh v = 0) : cmdWord (cmdOp v) (cmdPat v) = v := by
  apply BitVec.eq_of_getLsbD_eq; intro i hi
  have hb : ∀ j, j < 16 → v.getLsbD (16 + j) = false := by
    intro j hj
    have := congrArg (fun b => b.getLsbD j) h
    simpa [cmdHigh, BitVec.getLsbD_extractLsb', hj] using this
  simp only [cmdOp, cmdPat, cmdWord, BitVec.getLsbD_extractLsb', BitVec.getLsbD_append]
  by_cases h16 : i < 16
  · interval_cases i <;> simp
  · have := hb (i - 16) (by omega)
    rw [show 16 + (i - 16) = i by omega] at this
    rw [if_neg (by omega), if_neg (by omega), this]
    simp

/-! ## Recipe words (R56) -/

@[simp] theorem recipeKind_recipeWord (k i1 i2 i3 : BitVec 4) : recipeKind (recipeWord k i1 i2 i3) = k := by
  apply BitVec.eq_of_getLsbD_eq; intro i hi
  simp only [recipeKind, recipeWord, BitVec.getLsbD_extractLsb', BitVec.getLsbD_append]
  interval_cases i <;> simp

@[simp] theorem recipeI1_recipeWord (k i1 i2 i3 : BitVec 4) : recipeI1 (recipeWord k i1 i2 i3) = i1 := by
  apply BitVec.eq_of_getLsbD_eq; intro i hi
  simp only [recipeI1, recipeWord, BitVec.getLsbD_extractLsb', BitVec.getLsbD_append]
  interval_cases i <;> simp

@[simp] theorem recipeI2_recipeWord (k i1 i2 i3 : BitVec 4) : recipeI2 (recipeWord k i1 i2 i3) = i2 := by
  apply BitVec.eq_of_getLsbD_eq; intro i hi
  simp only [recipeI2, recipeWord, BitVec.getLsbD_extractLsb', BitVec.getLsbD_append]
  interval_cases i <;> simp

@[simp] theorem recipeI3_recipeWord (k i1 i2 i3 : BitVec 4) : recipeI3 (recipeWord k i1 i2 i3) = i3 := by
  apply BitVec.eq_of_getLsbD_eq; intro i hi
  simp only [recipeI3, recipeWord, BitVec.getLsbD_extractLsb', BitVec.getLsbD_append]
  interval_cases i <;> simp

/-- A recipe word is its four fields. -/
theorem recipeWord_fields (r : BitVec 16) :
    recipeWord (recipeKind r) (recipeI1 r) (recipeI2 r) (recipeI3 r) = r := by
  apply BitVec.eq_of_getLsbD_eq; intro i hi
  simp only [recipeKind, recipeI1, recipeI2, recipeI3, recipeWord, BitVec.getLsbD_extractLsb', BitVec.getLsbD_append]
  interval_cases i <;> simp

/-! ## Table entries (R57) -/

@[simp] theorem entryRd_plainEntry (r : BitVec 16) : entryRd (plainEntry r) = r := by
  apply BitVec.eq_of_getLsbD_eq; intro i hi
  simp only [entryRd, plainEntry, BitVec.getLsbD_extractLsb', BitVec.getLsbD_append]
  interval_cases i <;> simp

@[simp] theorem entryRs_plainEntry (r : BitVec 16) : entryRs (plainEntry r) = 0 := by
  apply BitVec.eq_of_getLsbD_eq; intro i hi
  simp only [entryRs, plainEntry, BitVec.getLsbD_extractLsb', BitVec.getLsbD_append]
  interval_cases i <;> simp

@[simp] theorem entryTa_plainEntry (r : BitVec 16) : entryTa (plainEntry r) = 0 := by
  apply BitVec.eq_of_getLsbD_eq; intro i hi
  simp only [entryTa, plainEntry, BitVec.getLsbD_extractLsb', BitVec.getLsbD_append]
  interval_cases i <;> simp

@[simp] theorem entryTb_plainEntry (r : BitVec 16) : entryTb (plainEntry r) = 0 := by
  apply BitVec.eq_of_getLsbD_eq; intro i hi
  simp only [entryTb, plainEntry, BitVec.getLsbD_extractLsb', BitVec.getLsbD_append]
  interval_cases i <;> simp

@[simp] theorem entryIsCond_plainEntry (r : BitVec 16) : entryIsCond (plainEntry r) = false := by
  simp only [entryIsCond, plainEntry, BitVec.getLsbD_append]; simp

@[simp] theorem entryHigh_plainEntry (r : BitVec 16) : entryHigh (plainEntry r) = 0 := by
  apply BitVec.eq_of_getLsbD_eq; intro i hi
  simp only [entryHigh, plainEntry, BitVec.getLsbD_extractLsb', BitVec.getLsbD_append]
  interval_cases i <;> simp

@[simp] theorem entryRd_condEntry (ta tb : BitVec 4) (rd rs : BitVec 16) : entryRd (condEntry ta tb rd rs) = rd := by
  apply BitVec.eq_of_getLsbD_eq; intro i hi
  simp only [entryRd, condEntry, BitVec.getLsbD_extractLsb', BitVec.getLsbD_append]
  interval_cases i <;> simp

@[simp] theorem entryRs_condEntry (ta tb : BitVec 4) (rd rs : BitVec 16) : entryRs (condEntry ta tb rd rs) = rs := by
  apply BitVec.eq_of_getLsbD_eq; intro i hi
  simp only [entryRs, condEntry, BitVec.getLsbD_extractLsb', BitVec.getLsbD_append]
  interval_cases i <;> simp

@[simp] theorem entryTa_condEntry (ta tb : BitVec 4) (rd rs : BitVec 16) : entryTa (condEntry ta tb rd rs) = ta := by
  apply BitVec.eq_of_getLsbD_eq; intro i hi
  simp only [entryTa, condEntry, BitVec.getLsbD_extractLsb', BitVec.getLsbD_append]
  interval_cases i <;> simp

@[simp] theorem entryTb_condEntry (ta tb : BitVec 4) (rd rs : BitVec 16) : entryTb (condEntry ta tb rd rs) = tb := by
  apply BitVec.eq_of_getLsbD_eq; intro i hi
  simp only [entryTb, condEntry, BitVec.getLsbD_extractLsb', BitVec.getLsbD_append]
  interval_cases i <;> simp

@[simp] theorem entryIsCond_condEntry (ta tb : BitVec 4) (rd rs : BitVec 16) :
    entryIsCond (condEntry ta tb rd rs) = true := by
  simp only [entryIsCond, condEntry, BitVec.getLsbD_append]; simp

@[simp] theorem entryHigh_condEntry (ta tb : BitVec 4) (rd rs : BitVec 16) : entryHigh (condEntry ta tb rd rs) = 0 := by
  apply BitVec.eq_of_getLsbD_eq; intro i hi
  simp only [entryHigh, condEntry, BitVec.getLsbD_extractLsb', BitVec.getLsbD_append]
  interval_cases i <;> simp

/-! ## Bus transactions (R59) -/

@[simp] theorem busIsWrite_busRead (i : BitVec 8) : busIsWrite (busRead i) = false := by
  simp only [busIsWrite, busRead, BitVec.getLsbD_append]; simp

@[simp] theorem busIndex_busRead (i : BitVec 8) : busIndex (busRead i) = i := by
  apply BitVec.eq_of_getLsbD_eq; intro j hj
  simp only [busIndex, busRead, BitVec.getLsbD_extractLsb', BitVec.getLsbD_append]
  interval_cases j <;> simp

@[simp] theorem busIsWrite_busWrite (i : BitVec 8) (v : Word) : busIsWrite (busWrite i v) = true := by
  simp only [busIsWrite, busWrite, BitVec.getLsbD_append]; simp

@[simp] theorem busIndex_busWrite (i : BitVec 8) (v : Word) : busIndex (busWrite i v) = i := by
  apply BitVec.eq_of_getLsbD_eq; intro j hj
  simp only [busIndex, busWrite, BitVec.getLsbD_extractLsb', BitVec.getLsbD_append]
  interval_cases j <;> simp

@[simp] theorem busData_busWrite (i : BitVec 8) (v : Word) : busData (busWrite i v) = v := by
  apply BitVec.eq_of_getLsbD_eq; intro j hj
  simp only [busData, busWrite, BitVec.getLsbD_extractLsb', BitVec.getLsbD_append]
  interval_cases j <;> simp

end Sys2Proof
end

