-- ==== Sys2Proof/Laws/PerInstr.lean ====
section
/-!
SUPPORT. Statements made per instruction. EncodeTable: the encoded word of a well-formed instruction matches its own row of
spec/opcode_table.json (word and mask = match).
-/

namespace Sys2Proof.Laws.EncodeTable

/-- The mask and the match of the row of spec/opcode_table.json an instruction stands for. -/
def tableRow (i : Instr) : Nat × Nat :=
  match i with
  | .nop => (0xFFFFFFFF, 0x00000000)
  | .lutInit => (0xFFFFFFFF, 0x00000001)
  | .lutDeinit => (0xFFFFFFFF, 0x00000002)
  | .lookup => (0xFFFFFFFF, 0x00000003)
  | .differs => (0xFFFFFFFF, 0x00000004)
  | .classify => (0xFFFFFFFF, 0x00000005)
  | .dispatch _ => (0xFFFF00FF, 0x00000006)
  | .pixel => (0xFFFFFFFF, 0x00000007)
  | .magnify => (0xFFFFFFFF, 0x00000008)
  | .mix31 => (0xFFFFFFFF, 0x00000010)
  | .mix211 => (0xFFFFFFFF, 0x00000011)
  | .mix71 => (0xFFFFFFFF, 0x00000012)
  | .mix277 => (0xFFFFFFFF, 0x00000013)
  | .mix53 => (0xFFFFFFFF, 0x00000014)
  | .mix421 => (0xFFFFFFFF, 0x00000015)
  | .mix611 => (0xFFFFFFFF, 0x00000016)
  | .mix233 => (0xFFFFFFFF, 0x00000017)
  | .mix1411 => (0xFFFFFFFF, 0x00000018)
  | .mix11 => (0xFFFFFFFF, 0x00000019)
  | .recipeCopy => (0xFFFF, 0x0000)
  | .recipeMix31 _ _ => (0xF00F, 0x0001)
  | .recipeMix211 _ _ _ => (0x000F, 0x0002)
  | .recipeMix71 _ _ => (0xF00F, 0x0003)
  | .recipeMix277 _ _ _ => (0x000F, 0x0004)
  | .recipeMix53 _ _ => (0xF00F, 0x0005)
  | .recipeMix421 _ _ _ => (0x000F, 0x0006)
  | .recipeMix611 _ _ _ => (0x000F, 0x0007)
  | .recipeMix233 _ _ _ => (0x000F, 0x0008)
  | .recipeMix1411 _ _ _ => (0x000F, 0x0009)
  | .recipeMix11 _ _ => (0xF00F, 0x000A)
  | .entryPlain _ => (0xFFFFFFFFFFFF0000, 0x0000000000000000)
  | .entryCond _ _ _ _ => (0xFFFFFF0000000000, 0x0000010000000000)
  | .rd _ => (0x100FFFFFFFF, 0x00000000000)
  | .wr _ _ => (0x10000000000, 0x10000000000)
  | .clrfault => (0x1FFFFFFFFFF, 0x10200000002)

/-- A code word matches a mask and a match of its format. -/
def Matches (c : CodeWord) (mask value : Nat) : Prop :=
  match c with
  | .cmd v => v &&& BitVec.ofNat 32 mask = BitVec.ofNat 32 value
  | .recipe r => r &&& BitVec.ofNat 16 mask = BitVec.ofNat 16 value
  | .entry e => e &&& BitVec.ofNat 64 mask = BitVec.ofNat 64 value
  | .bus t => t &&& BitVec.ofNat 41 mask = BitVec.ofNat 41 value

/-- The encoded word of a well-formed instruction matches its row. -/
def Statement (i : Instr) : Prop := i.wf = true → Matches (encode i) (tableRow i).1 (tableRow i).2

/-- The mask of the 3-input recipe rows keeps KIND. -/
theorem recipeWord_and_kind (k i1 i2 i3 : BitVec 4) : recipeWord k i1 i2 i3 &&& 0x000F#16 = (0 : BitVec 12) ++ k := by
  apply BitVec.eq_of_getLsbD_eq; intro i hi
  simp only [recipeWord, BitVec.getLsbD_and, BitVec.getLsbD_append]
  interval_cases i <;> simp

/-- The mask of the 2-input recipe rows keeps KIND and I3. -/
theorem recipeWord_and_kind_i3 (k i1 i2 i3 : BitVec 4) :
    recipeWord k i1 i2 i3 &&& 0xF00F#16 = i3 ++ (0 : BitVec 8) ++ k := by
  apply BitVec.eq_of_getLsbD_eq; intro i hi
  simp only [recipeWord, BitVec.getLsbD_and, BitVec.getLsbD_append]
  interval_cases i <;> simp

theorem nop : Statement .nop := fun _ => by show _ = _; decide
theorem lutInit : Statement .lutInit := fun _ => by show _ = _; decide
theorem lutDeinit : Statement .lutDeinit := fun _ => by show _ = _; decide
theorem lookup : Statement .lookup := fun _ => by show _ = _; decide
theorem differs : Statement .differs := fun _ => by show _ = _; decide
theorem classify : Statement .classify := fun _ => by show _ = _; decide
theorem dispatch (pat : BitVec 8) : Statement (.dispatch pat) := fun _ => by
  apply BitVec.eq_of_getLsbD_eq; intro i hi
  simp only [cmdWord, tableRow, BitVec.getLsbD_and, BitVec.getLsbD_append]
  interval_cases i <;> simp
theorem pixel : Statement .pixel := fun _ => by show _ = _; decide
theorem magnify : Statement .magnify := fun _ => by show _ = _; decide
theorem mix31 : Statement .mix31 := fun _ => by show _ = _; decide
theorem mix211 : Statement .mix211 := fun _ => by show _ = _; decide
theorem mix71 : Statement .mix71 := fun _ => by show _ = _; decide
theorem mix277 : Statement .mix277 := fun _ => by show _ = _; decide
theorem mix53 : Statement .mix53 := fun _ => by show _ = _; decide
theorem mix421 : Statement .mix421 := fun _ => by show _ = _; decide
theorem mix611 : Statement .mix611 := fun _ => by show _ = _; decide
theorem mix233 : Statement .mix233 := fun _ => by show _ = _; decide
theorem mix1411 : Statement .mix1411 := fun _ => by show _ = _; decide
theorem mix11 : Statement .mix11 := fun _ => by show _ = _; decide
theorem recipeCopy : Statement .recipeCopy := fun _ => by show _ = _; decide
theorem recipeMix31 (i1 i2 : BitVec 4) : Statement (.recipeMix31 i1 i2) := fun _ =>
  recipeWord_and_kind_i3 1 i1 i2 0 |>.trans (by rw [tableRow]; decide)
theorem recipeMix211 (i1 i2 i3 : BitVec 4) : Statement (.recipeMix211 i1 i2 i3) := fun _ =>
  recipeWord_and_kind 2 i1 i2 i3 |>.trans (by rw [tableRow]; decide)
theorem recipeMix71 (i1 i2 : BitVec 4) : Statement (.recipeMix71 i1 i2) := fun _ =>
  recipeWord_and_kind_i3 3 i1 i2 0 |>.trans (by rw [tableRow]; decide)
theorem recipeMix277 (i1 i2 i3 : BitVec 4) : Statement (.recipeMix277 i1 i2 i3) := fun _ =>
  recipeWord_and_kind 4 i1 i2 i3 |>.trans (by rw [tableRow]; decide)
theorem recipeMix53 (i1 i2 : BitVec 4) : Statement (.recipeMix53 i1 i2) := fun _ =>
  recipeWord_and_kind_i3 5 i1 i2 0 |>.trans (by rw [tableRow]; decide)
theorem recipeMix421 (i1 i2 i3 : BitVec 4) : Statement (.recipeMix421 i1 i2 i3) := fun _ =>
  recipeWord_and_kind 6 i1 i2 i3 |>.trans (by rw [tableRow]; decide)
theorem recipeMix611 (i1 i2 i3 : BitVec 4) : Statement (.recipeMix611 i1 i2 i3) := fun _ =>
  recipeWord_and_kind 7 i1 i2 i3 |>.trans (by rw [tableRow]; decide)
theorem recipeMix233 (i1 i2 i3 : BitVec 4) : Statement (.recipeMix233 i1 i2 i3) := fun _ =>
  recipeWord_and_kind 8 i1 i2 i3 |>.trans (by rw [tableRow]; decide)
theorem recipeMix1411 (i1 i2 i3 : BitVec 4) : Statement (.recipeMix1411 i1 i2 i3) := fun _ =>
  recipeWord_and_kind 9 i1 i2 i3 |>.trans (by rw [tableRow]; decide)
theorem recipeMix11 (i1 i2 : BitVec 4) : Statement (.recipeMix11 i1 i2) := fun _ =>
  recipeWord_and_kind_i3 10 i1 i2 0 |>.trans (by rw [tableRow]; decide)
theorem entryPlain (r : BitVec 16) : Statement (.entryPlain r) := fun _ => by
  apply BitVec.eq_of_getLsbD_eq; intro i hi
  simp only [plainEntry, tableRow, BitVec.getLsbD_and, BitVec.getLsbD_append]
  interval_cases i <;> simp
theorem entryCond (rdWord rsWord : BitVec 16) (ta tb : BitVec 4) : Statement (.entryCond rdWord rsWord ta tb) := fun _ => by
  apply BitVec.eq_of_getLsbD_eq; intro i hi
  simp only [condEntry, tableRow, BitVec.getLsbD_and, BitVec.getLsbD_append]
  interval_cases i <;> simp
theorem rd (index : BitVec 8) : Statement (.rd index) := fun _ => by
  apply BitVec.eq_of_getLsbD_eq; intro i hi
  simp only [busRead, tableRow, BitVec.getLsbD_and, BitVec.getLsbD_append]
  interval_cases i <;> simp
theorem wr (index : BitVec 8) (data : Word) : Statement (.wr index data) := fun _ => by
  apply BitVec.eq_of_getLsbD_eq; intro i hi
  simp only [busWrite, tableRow, BitVec.getLsbD_and, BitVec.getLsbD_append]
  interval_cases i <;> simp
theorem clrfault : Statement .clrfault := fun _ => by show _ = _; decide

end Sys2Proof.Laws.EncodeTable
end

