-- ==== Sys2Proof/Tests/Slice0.lean ====
section
/-!
SUPPORT. Tests of this model: ill-formed terms that the checks refuse, words written out from the encodings of
30_encoding.md, single steps with values of 95_test_vectors.md, and for each statement with hypotheses a state and operands
that meet them.
-/

namespace Sys2Proof.Tests

open Sys2Proof Sys2Proof.Machine

/-! ## The instance and the states of the tests -/

/-- T3_ILL of 95_test_vectors.md section 0: pattern 0x0B holds the entries of R100, every other entry is COPY. -/
def ill3 : List (BitVec 64) :=
  List.replicate 99 0 ++
    [0x0000011313420000, 0x0000000000000141, 0, 0x000001130000013A, 0, 0, 0, 0, 0] ++ List.replicate 2196 0

/-- T4_ILL of the same section, with MIX_3_1(4, 5) encoded as R56 says: 0x0541 (log 17). -/
def ill4 : List (BitVec 64) := (List.replicate 1024 [0, 0, 0, 0x0000000000000541]).flatten

/-- The instance of 95_test_vectors.md: the defaults of R6 and 256 words of memory. -/
def params : Params where
  table3 := ill3
  table4 := ill4
  alphaShift := .arith
  yuvArith := .exact
  uvTrunc := .whole
  f5Weights := .w521
  memWords := 256
  byteOrder := .little

theorem ill3_wf : tableWf 3 ill3 = true := by decide +kernel
theorem ill4_wf : tableWf 4 ill4 = true := by decide +kernel

/-- These tables and this memory are legal under every reading. -/
theorem params_legal (a : AlphaShift) (y : YuvArith) (u : UvTrunc) (f : F5Weights) :
    ({ params with alphaShift := a, yuvArith := y, uvTrunc := u, f5Weights := f } : Params).wf = true := by
  simp only [Params.wf, Params.tablesWf, Params.memoryOk, show params.table3 = ill3 from rfl,
    show params.table4 = ill4 from rfl, show params.memWords = 256 from rfl, ill3_wf, ill4_wf]
  decide

/-- The instance under given readings. -/
def chipOf (a : AlphaShift) (y : YuvArith) (u : UvTrunc) (f : F5Weights) : Chip where
  params := { params with alphaShift := a, yuvArith := y, uvTrunc := u, f5Weights := f }
  legal := params_legal a y u f

/-- The instance of 95_test_vectors.md. -/
def chip : Chip := chipOf .arith .exact .whole .w521
/-- The same under LOGICAL. -/
def logical : Chip := chipOf .logical .exact .whole .w521
/-- The same under W421. -/
def weights421 : Chip := chipOf .arith .exact .whole .w421
/-- Right after reset. -/
def cold : State := State.resetOf chip
/-- After LUT_INIT. -/
def ready : State := { cold with lutValid := true }
/-- With BAD_REG pending. -/
def faulty : State := { ready with fault := true, faultCode := 3 }
/-- With three operands. -/
def operands (k : Chip) (a b c : Word) : State := { State.resetOf k with opa := a, opb := b, opc := c, lutValid := true }
/-- The neighbourhood of V6.1, row 1. -/
def rowOne : Nbhd :=
  #v[0xFFFFFFFF, 0xFFFFFFFF, 0xFF000000, 0xFFFFFFFF, 0xFF000000, 0xFF000000, 0xFF000000, 0xFF000000, 0xFF000000]
/-- The neighbourhood of V6.1, row 2. -/
def rowTwo : Nbhd :=
  #v[0xFFFFFFFF, 0xFFFFFFFF, 0xFF000000, 0xFF808080, 0xFF000000, 0xFF000000, 0xFF000000, 0xFF000000, 0xFF000000]
/-- The resolver at sub-pixel 0 of V6.1, row 1, with the thresholds of reset latched. -/
def resolver : State := { ready with eff := effOf ready, latch := { Latch.zero with w := rowOne } }
/-- The resolver over three colours at indices 0, 1 and 2. -/
def mixing (k : Chip) (a b c : Word) : State :=
  { State.resetOf k with latch := { Latch.zero with w := #v[a, b, c, 0, 0, 0, 0, 0, 0] } }
/-- P5 before its first MAGNIFY: a black and a white pixel, N = 4. -/
def job : State :=
  { ready with
    ctrl := 4, srcLen := 2, dstBase := 0x10, dstLen := 0x20, width := 2, height := 1
    mem := [(3, 0xFF), (4, 0xFF), (5, 0xFF), (6, 0xFF), (7, 0xFF)] }
/-- The same with two red pixels, N = 3. -/
def redJob : State := { job with ctrl := 0, mem := [(2, 0xFF), (3, 0xFF), (6, 0xFF), (7, 0xFF)] }
/-- A 3 x 2 image whose word at offset i is i, for V8.6. -/
def grid (ctrl : Word) : State :=
  { ready with ctrl := ctrl, width := 3, height := 2, mem := [(4, 1), (8, 2), (12, 3), (16, 4), (20, 5)] }

/-- A field of the next state. -/
def after {a : Type} (f : State → a) (o : Host.Outcome State Fault Refusal) : Option a :=
  match o with
  | .next t => some (f t)
  | .fault _ => none
  | .refused _ => none

/-- Whether an outcome is this refusal. -/
def refusedBy (r : Refusal) (o : Host.Outcome State Fault Refusal) : Bool :=
  match o with
  | .next _ => false
  | .fault _ => false
  | .refused q => q == r

/-! ## WellFormed refuses what no encoding stands for (R56 to R58, R60) -/

theorem test_wf_refuses_recipeMix31 : (Instr.recipeMix31 9 0).wf = false ∧ (Instr.recipeMix31 0 9).wf = false := by decide
theorem test_wf_refuses_recipeMix71 : (Instr.recipeMix71 9 0).wf = false ∧ (Instr.recipeMix71 0 9).wf = false := by decide
theorem test_wf_refuses_recipeMix53 : (Instr.recipeMix53 9 0).wf = false ∧ (Instr.recipeMix53 0 9).wf = false := by decide
theorem test_wf_refuses_recipeMix11 : (Instr.recipeMix11 9 0).wf = false ∧ (Instr.recipeMix11 0 9).wf = false := by decide
theorem test_wf_refuses_recipeMix211 : (Instr.recipeMix211 9 0 0).wf = false ∧ (Instr.recipeMix211 0 15 0).wf = false ∧
    (Instr.recipeMix211 0 0 9).wf = false := by decide
theorem test_wf_refuses_recipeMix277 : (Instr.recipeMix277 9 0 0).wf = false ∧ (Instr.recipeMix277 0 15 0).wf = false ∧
    (Instr.recipeMix277 0 0 9).wf = false := by decide
theorem test_wf_refuses_recipeMix421 : (Instr.recipeMix421 9 0 0).wf = false ∧ (Instr.recipeMix421 0 15 0).wf = false ∧
    (Instr.recipeMix421 0 0 9).wf = false := by decide
theorem test_wf_refuses_recipeMix611 : (Instr.recipeMix611 9 0 0).wf = false ∧ (Instr.recipeMix611 0 15 0).wf = false ∧
    (Instr.recipeMix611 0 0 9).wf = false := by decide
theorem test_wf_refuses_recipeMix233 : (Instr.recipeMix233 9 0 0).wf = false ∧ (Instr.recipeMix233 0 15 0).wf = false ∧
    (Instr.recipeMix233 0 0 9).wf = false := by decide
theorem test_wf_refuses_recipeMix1411 : (Instr.recipeMix1411 9 0 0).wf = false ∧ (Instr.recipeMix1411 0 15 0).wf = false ∧
    (Instr.recipeMix1411 0 0 9).wf = false := by decide
theorem test_wf_refuses_entryPlain : (Instr.entryPlain 0x000B).wf = false := by decide
theorem test_wf_refuses_entryCond : (Instr.entryCond 0x0010 0 0 0).wf = false ∧ (Instr.entryCond 0 0x1141 0 0).wf = false ∧
    (Instr.entryCond 0 0 9 0).wf = false ∧ (Instr.entryCond 0 0 0 9).wf = false := by decide
theorem test_wf_refuses_wr : (Instr.wr 0x02 2).wf = false ∧ (Instr.wr 0x02 3).wf = true := by decide
theorem test_recipeWf_refuses : recipeWf 0x000B = false ∧ recipeWf 0x0010 = false ∧ recipeWf 0x0091 = false ∧
    recipeWf 0x0901 = false ∧ recipeWf 0x1001 = false ∧ recipeWf 0x9002 = false := by decide
theorem test_entryWf_refuses : entryWf 0x0000020000000000 = false ∧ entryWf 0x000000000000000B = false ∧
    entryWf 0x0000000000010000 = false ∧ entryWf 0x0000000100000000 = false ∧ entryWf 0x0000001000000000 = false ∧
    entryWf 0x00000100000B0000 = false ∧ entryWf 0x0000010900000000 = false ∧ entryWf 0x0000019000000000 = false := by
  decide
theorem test_tableWf_refuses : tableWf 3 [] = false ∧ tableWf 3 (List.replicate 2303 0) = false ∧
    tableWf 3 (List.replicate 2303 0 ++ [0x0B]) = false := by decide +kernel
theorem test_params_wf_refuses : ({ params with memWords := 0 } : Params).wf = false ∧
    ({ params with memWords := 2 ^ 32 + 1 } : Params).wf = false ∧ ({ params with table3 := [] } : Params).wf = false ∧
    ({ params with table4 := ill3 } : Params).wf = false := by decide +kernel

/-! ## Decoding: words written out from R53 to R60 -/

theorem test_decode_nop : decodeTableWord 32 0x00000000 = some .nop := by decide
theorem test_decode_lutInit : decodeTableWord 32 0x00000001 = some .lutInit := by decide
theorem test_decode_lutDeinit : decodeTableWord 32 0x00000002 = some .lutDeinit := by decide
theorem test_decode_lookup : decodeTableWord 32 0x00000003 = some .lookup := by decide
theorem test_decode_differs : decodeTableWord 32 0x00000004 = some .differs := by decide
theorem test_decode_classify : decodeTableWord 32 0x00000005 = some .classify := by decide
theorem test_decode_pixel : decodeTableWord 32 0x00000007 = some .pixel := by decide
theorem test_decode_magnify : decodeTableWord 32 0x00000008 = some .magnify := by decide
theorem test_decode_dispatch : decodeTableWord 32 0x00005A06 = some (.dispatch 0x5A) := by decide
theorem test_decode_mix31 : decodeTableWord 32 0x00000010 = some .mix31 := by decide
theorem test_decode_mix211 : decodeTableWord 32 0x00000011 = some .mix211 := by decide
theorem test_decode_mix71 : decodeTableWord 32 0x00000012 = some .mix71 := by decide
theorem test_decode_mix277 : decodeTableWord 32 0x00000013 = some .mix277 := by decide
theorem test_decode_mix53 : decodeTableWord 32 0x00000014 = some .mix53 := by decide
theorem test_decode_mix421 : decodeTableWord 32 0x00000015 = some .mix421 := by decide
theorem test_decode_mix611 : decodeTableWord 32 0x00000016 = some .mix611 := by decide
theorem test_decode_mix233 : decodeTableWord 32 0x00000017 = some .mix233 := by decide
theorem test_decode_mix1411 : decodeTableWord 32 0x00000018 = some .mix1411 := by decide
theorem test_decode_mix11 : decodeTableWord 32 0x00000019 = some .mix11 := by decide
theorem test_decode_recipeCopy : decodeTableWord 16 0x0000 = some .recipeCopy := by decide
theorem test_decode_recipeMix31 : decodeTableWord 16 0x0381 = some (.recipeMix31 8 3) := by decide
theorem test_decode_recipeMix211 : decodeTableWord 16 0x7382 = some (.recipeMix211 8 3 7) := by decide
theorem test_decode_recipeMix71 : decodeTableWord 16 0x0383 = some (.recipeMix71 8 3) := by decide
theorem test_decode_recipeMix277 : decodeTableWord 16 0x7384 = some (.recipeMix277 8 3 7) := by decide
theorem test_decode_recipeMix53 : decodeTableWord 16 0x0385 = some (.recipeMix53 8 3) := by decide
theorem test_decode_recipeMix421 : decodeTableWord 16 0x7386 = some (.recipeMix421 8 3 7) := by decide
theorem test_decode_recipeMix611 : decodeTableWord 16 0x7387 = some (.recipeMix611 8 3 7) := by decide
theorem test_decode_recipeMix233 : decodeTableWord 16 0x7388 = some (.recipeMix233 8 3 7) := by decide
theorem test_decode_recipeMix1411 : decodeTableWord 16 0x7389 = some (.recipeMix1411 8 3 7) := by decide
theorem test_decode_recipeMix11 : decodeTableWord 16 0x038A = some (.recipeMix11 8 3) := by decide
theorem test_decode_entryPlain : decodeTableWord 64 0x0000000000000141 = some (.entryPlain 0x0141) := by decide
theorem test_decode_entryCond : decodeTableWord 64 0x0000011313420000 = some (.entryCond 0x0000 0x1342 3 1) := by decide
theorem test_decode_rd : decodeTableWord 48 0x03F00000000 = some (.rd 0x3F) ∧
    decodeTableWord 41 0x0020000FFFF = some (.rd 0x02) := by decide
theorem test_decode_wr : decodeTableWord 48 0x10300000005 = some (.wr 0x03 5) ∧
    decodeTableWord 48 0x10200000003 = some (.wr 0x02 3) := by decide
theorem test_decode_clrfault : decodeTableWord 48 0x10200000002 = some .clrfault := by decide
theorem test_decode_refuses : decodeTableWord 32 0x00000009 = none ∧ decodeTableWord 32 0x0000001A = none ∧
    decodeTableWord 32 0x00000110 = none ∧ decodeTableWord 32 0x00010003 = none ∧ decodeTableWord 16 0x000B = none ∧
    decodeTableWord 64 0x0000020000000000 = none ∧ decodeTableWord 8 0 = none := by decide

/-! ## Single steps -/

/-- V7.4. -/
theorem test_nop : exec .nop cold = .next cold ∧ exec .nop faulty = .next faulty := ⟨rfl, rfl⟩
/-- V2.4. -/
theorem test_lutInit : after statusWord (step (cold.withFetchWord 32 1)) = some 0x00000001 := by decide
/-- V2.4. -/
theorem test_lutDeinit : after statusWord (step (ready.withFetchWord 32 2)) = some 0x00000000 := by decide
/-- V2.3. -/
theorem test_lookup : after State.result (exec .lookup (operands chip 0x00FF0000 0 0)) = some 0x004C54FF := by
  decide +kernel
/-- V2.4: before LUT_INIT. -/
theorem test_lookup_not_ready : after statusWord (exec .lookup cold) = some 0x00000202 := by decide
/-- V2.1, the row that tells EXACT from BINARY64. -/
theorem test_yuv_binary64 : yuv params 0x004818 = 0x2D745F ∧
    yuv { params with yuvArith := .binary64 } 0x004818 = 0x2C745F ∧
    yuv { params with yuvArith := .binary64, uvTrunc := .chromaFirst } 0x1B1B1D = 0x1B8080 := by decide +kernel
/-- R62: each literal is the multiple of its unit nearest to the decimal number (its last bit is 2^-54 to 2^-56). -/
theorem test_literals : 2 * (1000 * lit299 - 299 * 2 ^ 56).natAbs ≤ 4 * 1000 ∧ lit299 % 4 = 0 ∧
    2 * (1000 * lit587 - 587 * 2 ^ 56).natAbs ≤ 8 * 1000 ∧ lit587 % 8 = 0 ∧
    2 * (1000 * lit114 - 114 * 2 ^ 56).natAbs ≤ 1000 ∧ 2 * (1000 * lit169 - 169 * 2 ^ 56).natAbs ≤ 2 * 1000 ∧
    2 * (1000 * lit331 - 331 * 2 ^ 56).natAbs ≤ 4 * 1000 ∧ 2 * (1000 * lit419 - 419 * 2 ^ 56).natAbs ≤ 4 * 1000 ∧
    2 * (1000 * lit081 - 81 * 2 ^ 56).natAbs ≤ 1000 ∧ lit500 = 2 ^ 55 ∧ lit128 = 2 ^ 63 := by decide
/-- V3.3. -/
theorem test_differs : after State.result (exec .differs (operands chip 0xFF000000 0xFF313131 0)) = some 1 ∧
    after State.result (exec .differs (operands chip 0xFF000000 0xFF303030 0)) = some 0 := by decide +kernel
/-- V3.2, row 1: with THR_A = 48 the reading of alpha decides. -/
theorem test_differs_alpha :
    after State.result (exec .differs { operands chip 0xFF000000 0 0 with thrA := 48 }) = some 0 ∧
    after State.result (exec .differs { operands logical 0xFF000000 0 0 with thrA := 48 }) = some 1 := by decide +kernel
/-- V4.2, row 4. -/
theorem test_classify : after State.result (exec .classify { ready with nb :=
    #v[0xFF000000, 0xFF000000, 0xFF000000, 0xFF000000, 0xFF000000, 0xFF000000, 0xFF010101, 0xFF0A0A0A, 0xFF404040] }) =
    some 0x80 := by decide +kernel
/-- V4.1: index 5 is bit 4. -/
theorem test_classify_order : after State.result (exec .classify { ready with nb :=
    #v[0xFF000000, 0xFF000000, 0xFF000000, 0xFF000000, 0xFF000000, 0xFFFFFFFF, 0xFF000000, 0xFF000000, 0xFF000000] }) =
    some 0x10 := by decide +kernel
/-- V6.2. -/
theorem test_dispatch : after (fun t => (t.out.toList.take 5, t.result))
    (exec (.dispatch 0x0B) { ready with nb := rowTwo, result := 0x0B }) =
    some ([0xFF000000, 0xFF3F3F3F, 0xFF000000, 0xFFBFBFBF, 0xFF000000], 0x0B) := by decide +kernel
/-- V6.3. -/
theorem test_dispatch_four : after (fun t => t.out.toList) (exec (.dispatch 0) { ready with ctrl := 4, nb :=
    #v[0xFF000000, 0xFF101010, 0xFF202020, 0xFF303030, 0xFF404040, 0xFF505050, 0xFF606060, 0xFF707070, 0xFF808080] }) =
    some ((List.replicate 4 [0xFF404040, 0xFF404040, 0xFF404040, 0xFF444444]).flatten) := by decide +kernel
/-- V6.1, row 1. -/
theorem test_pixel : after (fun t => (t.result, t.out.toList)) (exec .pixel { ready with nb := rowOne }) =
    some (0x0B, [0xFF7F7F7F, 0xFF3F3F3F] ++ List.replicate 7 0xFF000000 ++ List.replicate 7 0) := by decide +kernel
/-- P5, the first MAGNIFY: the first row, and the words on both sides of the destination. -/
theorem test_magnify : after (fun t => (List.range 10).map fun i => memRead t (0x0F + i)) (exec .magnify job) =
    some [0, 0xFF000000, 0xFF000000, 0xFF000000, 0xFF3F3F3F, 0xFFFFFFFF, 0xFFFFFFFF, 0xFFFFFFFF, 0xFFFFFFFF, 0xFF000000] := by
  decide +kernel
/-- V7.2: the MAGNIFY rows, in the order of the checks of R103. -/
theorem test_magnify_checks :
    after statusWord (exec .magnify { cold with width := 2, height := 2, dstLen := 1 }) = some 0x00000202 ∧
    after statusWord (exec .magnify
      { ready with width := 2, height := 2, srcLen := 4, dstBase := 0xF0, dstLen := 1 }) = some 0x00000403 ∧
    after statusWord (exec .magnify
      { ready with width := 2, height := 2, srcBase := 0xF0, srcLen := 4, dstBase := 0xE0, dstLen := 36 }) =
      some 0x00000503 ∧
    after statusWord (exec .magnify
      { ready with width := 2, height := 2, srcBase := 0x10, srcLen := 4, dstBase := 0x12, dstLen := 36 }) =
      some 0x00000603 ∧
    after statusWord (exec .magnify { ready with height := 5, srcBase := 0xFFFFFFF0, dstBase := 0xFFFFFFF0 }) =
      some 0x00000001 := by decide +kernel
/-- V8.6: rows of the table, WRAP_X alone, WRAP_Y alone, both, and neither. -/
theorem test_gather : (gather (grid 1) 2 1).toList = [1, 2, 0, 4, 5, 3, 4, 5, 3] ∧
    (gather (grid 2) 0 0).toList = [3, 3, 4, 0, 0, 1, 3, 3, 4] ∧
    (gather (grid 3) 0 0).toList = [5, 3, 4, 2, 0, 1, 5, 3, 4] ∧
    (gather (grid 0) 2 1).toList = [1, 2, 2, 4, 5, 5, 4, 5, 5] := by decide +kernel

/-- V5.1, the alpha corner under both readings. -/
theorem test_mix31 : after State.result (exec .mix31 (operands chip 0x7F000000 0x81000000 0)) = some 0x3F000000 ∧
    after State.result (exec .mix31 (operands logical 0x7F000000 0x81000000 0)) = some 0x7F000000 := by decide
/-- V5.1, the alpha corner under both readings. -/
theorem test_mix211 : after State.result (exec .mix211 (operands chip 0x00FF0000 0xFF000000 0x000000FF)) = some 0xFF7F003F ∧
    after State.result (exec .mix211 (operands logical 0x00FF0000 0xFF000000 0x000000FF)) = some 0x3F7F003F := by decide
/-- V5.1, the alpha corner under both readings. -/
theorem test_mix71 : after State.result (exec .mix71 (operands chip 0x7F000000 0x81000000 0)) = some 0x5F000000 ∧
    after State.result (exec .mix71 (operands logical 0x7F000000 0x81000000 0)) = some 0x7F000000 := by decide
/-- V5.1, the alpha corner under both readings. -/
theorem test_mix277 : after State.result (exec .mix277 (operands chip 0x00FF0000 0xFF000000 0x000000FF)) = some 0xFF1F006F ∧
    after State.result (exec .mix277 (operands logical 0x00FF0000 0xFF000000 0x000000FF)) = some 0x6F1F006F := by decide
/-- V5.1, the alpha corner under both readings. -/
theorem test_mix53 : after State.result (exec .mix53 (operands chip 0x7F000000 0x81000000 0)) = some 0x1F000000 ∧
    after State.result (exec .mix53 (operands logical 0x7F000000 0x81000000 0)) = some 0x7F000000 := by decide
/-- V5.1, the alpha corner under both readings. -/
theorem test_mix421 : after State.result (exec .mix421 (operands chip 0x00FF0000 0xFF000000 0x000000FF)) = some 0xFF9F001F ∧
    after State.result (exec .mix421 (operands logical 0x00FF0000 0xFF000000 0x000000FF)) = some 0x3F9F001F := by decide
/-- V5.1, the alpha corner under both readings. -/
theorem test_mix611 : after State.result (exec .mix611 (operands chip 0x00FF0000 0xFF000000 0x000000FF)) = some 0xFFBF001F ∧
    after State.result (exec .mix611 (operands logical 0x00FF0000 0xFF000000 0x000000FF)) = some 0x1FBF001F := by decide
/-- V5.1, the alpha corner under both readings. -/
theorem test_mix233 : after State.result (exec .mix233 (operands chip 0x00FF0000 0xFF000000 0x000000FF)) = some 0xFF3F005F ∧
    after State.result (exec .mix233 (operands logical 0x00FF0000 0xFF000000 0x000000FF)) = some 0x5F3F005F := by decide
/-- V5.1, the alpha corner under both readings. -/
theorem test_mix1411 : after State.result (exec .mix1411 (operands chip 0x00FF0000 0xFF000000 0x000000FF)) = some 0xFFDF000F ∧
    after State.result (exec .mix1411 (operands logical 0x00FF0000 0xFF000000 0x000000FF)) = some 0x0FDF000F := by decide
/-- V5.1, the alpha corner under both readings. -/
theorem test_mix11 : after State.result (exec .mix11 (operands chip 0x7F000000 0x81000000 0)) = some 0x00000000 ∧
    after State.result (exec .mix11 (operands logical 0x7F000000 0x81000000 0)) = some 0x80000000 := by decide
/-- V5.2. -/
theorem test_mix421_w421 : after State.result
    (exec .mix421 (operands weights421 0xFF123456 0xFF123456 0xFF123456)) = some 0xFF0F2D4B := by
  decide
/-- R93. -/
theorem test_recipeCopy : after (fun t => (t.latch.out[0], t.latch.sub)) (exec .recipeCopy resolver) =
    some (0xFF000000, 0) := by decide
/-- V5.1, row 1 of the function, through R93. -/
theorem test_recipeMix31 : after (fun t => t.latch.out[0])
    (exec (.recipeMix31 0 1) (mixing chip 0xFFFF0000 0xFF0000FF 0)) = some 0xFFBF003F := by decide
/-- V5.1, row 1 of the function, through R93. -/
theorem test_recipeMix211 : after (fun t => t.latch.out[0])
    (exec (.recipeMix211 0 1 2) (mixing chip 0xFFFF0000 0xFF00FF00 0xFF0000FF)) = some 0xFF7F3F3F := by decide
/-- V5.1, row 1 of the function, through R93. -/
theorem test_recipeMix71 : after (fun t => t.latch.out[0])
    (exec (.recipeMix71 0 1) (mixing chip 0xFFFF0000 0xFF0000FF 0)) = some 0xFFDF001F := by decide
/-- V5.1, row 1 of the function, through R93. -/
theorem test_recipeMix277 : after (fun t => t.latch.out[0])
    (exec (.recipeMix277 0 1 2) (mixing chip 0xFFFF0000 0xFF00FF00 0xFF0000FF)) = some 0xFF1F6F6F := by decide
/-- V5.1, row 1 of the function, through R93. -/
theorem test_recipeMix53 : after (fun t => t.latch.out[0])
    (exec (.recipeMix53 0 1) (mixing chip 0xFFFF0000 0xFF0000FF 0)) = some 0xFF9F005F := by decide
/-- V5.1, row 1 of the function, through R93. -/
theorem test_recipeMix421 : after (fun t => t.latch.out[0])
    (exec (.recipeMix421 0 1 2) (mixing chip 0xFFFF0000 0xFF00FF00 0xFF0000FF)) = some 0xFF9F3F1F := by decide
/-- V5.1, row 1 of the function, through R93. -/
theorem test_recipeMix611 : after (fun t => t.latch.out[0])
    (exec (.recipeMix611 0 1 2) (mixing chip 0xFFFF0000 0xFF00FF00 0xFF0000FF)) = some 0xFFBF1F1F := by decide
/-- V5.1, row 1 of the function, through R93. -/
theorem test_recipeMix233 : after (fun t => t.latch.out[0])
    (exec (.recipeMix233 0 1 2) (mixing chip 0xFFFF0000 0xFF00FF00 0xFF0000FF)) = some 0xFF3F5F5F := by decide
/-- V5.1, row 1 of the function, through R93. -/
theorem test_recipeMix1411 : after (fun t => t.latch.out[0])
    (exec (.recipeMix1411 0 1 2) (mixing chip 0xFFFF0000 0xFF00FF00 0xFF0000FF)) = some 0xFFDF0F0F := by decide
/-- V5.1, row 1 of the function, through R93. -/
theorem test_recipeMix11 : after (fun t => t.latch.out[0])
    (exec (.recipeMix11 0 1) (mixing chip 0xFFFF0000 0xFF0000FF 0)) = some 0xFF7F007F := by decide
/-- R100, k = 1. -/
theorem test_entryPlain : after (fun t => (t.latch.out[0], t.latch.sub)) (exec (.entryPlain 0x0141) resolver) =
    some (0xFF3F3F3F, 1) := by decide
/-- R100, k = 0: w3 and w1 do not differ, so RS. -/
theorem test_entryCond : after (fun t => t.latch.out[0]) (exec (.entryCond 0x0000 0x1342 3 1) resolver) =
    some 0xFF7F7F7F := by decide +kernel
/-- V6.1, row 2, k = 3: w3 and w1 differ, so RD. -/
theorem test_entryCond_differs : after (fun t => t.latch.out[0])
    (exec (.entryCond 0x013A 0x0000 3 1) { resolver with latch := { Latch.zero with w := rowTwo } }) =
    some 0xFFBFBFBF := by decide +kernel
/-- V7.1. -/
theorem test_rd : after State.lastRead (exec (.rd 0x00) cold) = some 0x00010103 ∧
    after State.lastRead (exec (.rd 0x04) cold) = some 48 := by decide
/-- V7.1: reserved index and CMD. -/
theorem test_rd_bad : after (fun t => (t.lastRead, statusWord t)) (exec (.rd 0x29) cold) = some (0, 0x00000302) ∧
    after (fun t => (t.lastRead, statusWord t)) (exec (.rd 0x01) cold) = some (0, 0x00000302) := by decide
/-- V7.1. -/
theorem test_wr : after State.ctrl (exec (.wr 0x03 0xFFFFFFFF) cold) = some 7 ∧
    after (fun t => (t.result, statusWord t)) (exec (.wr 0x0B 1) cold) = some (0, 0x00000302) := by decide
/-- V7.2: an illegal word wins over LUT_NOT_READY; a write of CMD runs the command. -/
theorem test_wr_cmd : after statusWord (exec (.wr 0x01 0x00010003) cold) = some 0x00000102 ∧
    after statusWord (exec (.wr 0x01 0x00000001) cold) = some 0x00000001 := by decide
/-- V7.1. -/
theorem test_clrfault : after statusWord (exec .clrfault faulty) = some 0x00000001 := by decide
/-- R127, R128: the reset input keeps memory. -/
theorem test_reset_input : after (fun t => (t.thrY, t.width, t.mem.length))
    (step { job with thrY := 1, inputs := [.reset] }) = some (48, 0, 5) := by decide
/-- R42. -/
theorem test_store : after (fun t => memRead t 255) (step { job with inputs := [.store 255 0x11223344] }) =
    some 0x11223344 := by decide
/-- R58, I8: no core with a malformed table, whichever factor CTRL selects at reset. -/
theorem test_instantiate : refusedBy .malformedTable (instantiate { params with table3 := [] }) = true ∧
    refusedBy .malformedTable (instantiate { params with table4 := ill3 }) = true ∧
    refusedBy .badMemorySize (instantiate { params with memWords := 0 }) = true ∧
    after State.thrY (instantiate params) = some 48 := by decide +kernel
/-- Log 12. -/
theorem test_malformed : refusedBy .malformedEntry (step { ready with inputs := [.entry 0x0000020000000000] }) = true ∧
    refusedBy .malformedRecipe (exec (.recipeMix31 9 0) ready) = true := by decide


/-! ## Witnesses: for each statement with hypotheses, a state and operands that meet them -/

theorem witness_DecodeOfEncodeIsTheInstruction : (Instr.entryCond 0x013A 0x8882 8 8).wf = true ∧
    (Instr.recipeMix1411 8 8 8).wf = true ∧ (Instr.wr 0xFF 0xFFFFFFFF).wf = true ∧ Instr.clrfault.wf = true := by decide

theorem witness_DecodedWordsAreWellFormedAndEncodeBack : decode (.cmd 0x0000FF06) = .ok (.dispatch 0xFF) ∧
    decode (.recipe 0x8889) = .ok (.recipeMix1411 8 8 8) ∧
    decode (.entry 0x00000188013A8882) = .ok (.entryCond 0x8882 0x013A 8 8) ∧
    decode (.bus 0x10200000003) = .ok (.wr 2 3) ∧ busIsWrite 0x10200000003 = true ∧
    decode (.bus 0x0FFFFFFFFFF) = .ok (.rd 0xFF) ∧ busIsWrite 0x0FFFFFFFFFF = false := by decide

/-- Each clause: a fault pending; a set bit 16, reserved OPs at both edges, a PAT without DISPATCH; legal words. -/
theorem witness_CommandWordRunsOrIsIllegal : faulty.fault = true ∧ cold.fault = false ∧
    (0x00010000 : Word).toNat / 65536 ≠ 0 ∧
    (∀ v ∈ [(0x09 : Word), 0x0F, 0x1A, 0xFF], ¬ (v.toNat % 256 ≤ 0x08 ∨ (0x10 ≤ v.toNat % 256 ∧ v.toNat % 256 ≤ 0x19))) ∧
    ((0x00000110 : Word).toNat % 256 ≠ 0x06 ∧ (0x00000110 : Word).toNat / 256 % 256 ≠ 0) ∧
    (∀ v ∈ [(0x00 : Word), 0x08, 0x10, 0x19, 0xFF06], v.toNat / 65536 = 0 ∧
      (v.toNat % 256 ≤ 0x08 ∨ (0x10 ≤ v.toNat % 256 ∧ v.toNat % 256 ≤ 0x19)) ∧
      (v.toNat % 256 = 0x06 ∨ v.toNat / 256 % 256 = 0)) :=
  ⟨rfl, rfl, by decide, by simp, by decide, by simp⟩

theorem witness_StepRunsTheDecodedInstruction : cold.inputs = [] ∧
    (cold.withFetchWord 32 3).inputs = .bus (busWrite 0x01 3) :: [] ∧
    (resolver.withFetchWord 64 0x0000011313420000).inputs = .entry 0x0000011313420000 :: [] ∧
    decodeEntry 0x0000011313420000 = .ok (.entryCond 0x0000 0x1342 3 1) ∧
    (resolver.withFetchWord 16 0x0141).inputs = .recipe 0x0141 :: [] ∧
    decodeRecipe 0x0141 = .ok (.recipeMix31 4 1) := by decide

theorem witness_PresentedWordIsTheNextInstruction : decodeTableWord 48 0x10300000005 = some (.wr 0x03 5) ∧
    decodeTableWord 16 0x8889 = some (.recipeMix1411 8 8 8) := by decide

theorem witness_ResetInputRestoresTheRegisters : ({ job with inputs := [.reset] } : State).inputs = .reset :: [] := rfl

/-- A MAGNIFY cut short, and a word at each end of its destination extent. -/
theorem witness_CutTransactionLeavesEachWordOldOrNew :
    ({ job with inputs := [.cut (busWrite 0x01 0x00000008)] } : State).inputs =
      .cut (busWrite 0x01 0x00000008) :: [] ∧
    job.mem.wf = true ∧ job.dstBase.toNat ≤ 0x10 ∧ 0x2F < job.dstBase.toNat + destExtent job :=
  ⟨rfl, by decide, by decide, by decide⟩

/-- Both clauses: the last word of the memory and the first word past it. -/
theorem witness_HostStoreWritesItsWordOnly :
    ({ job with inputs := [.store 255 7] } : State).inputs = .store 255 7 :: [] ∧ job.mem.wf = true ∧
    (255 : BitVec 32).toNat < job.cfg.memWords ∧ job.cfg.memWords ≤ (256 : BitVec 32).toNat ∧ 0 / 4 ≠ 255 :=
  ⟨rfl, by decide, by decide, by decide, by decide⟩

theorem job_inv : job.Inv := ⟨job.chip.legal, by decide, by decide, by decide, fun _ => rfl, fun h => by cases h⟩

theorem witness_StepKeepsTheStateInvariant : ∃ t, job.Inv ∧ step (job.withFetchWord 32 1) = .next t ∧
    (job.withFetchWord 32 1).Inv := ⟨_, job_inv, rfl, job_inv⟩

theorem witness_StepKeepsTablesAndParameters : ∃ t, step (job.withFetchWord 32 1) = .next t := ⟨_, rfl⟩

/-- Both clauses. -/
theorem witness_StatusWriteClearsTheFaultOnly : (0x00000002 : Word).getLsbD 1 = true ∧
    (0xFFFFFFFD : Word).getLsbD 1 = false ∧ faulty.fault = true := by decide

/-- Both clauses, and the edges of each range. -/
theorem witness_WriteToReadOnlyOrReservedRaisesBadReg : cold.fault = false ∧ faulty.fault = true ∧
    ∀ i ∈ [(0x00 : BitVec 8), 0x0B, 0x12, 0x1F, 0x29, 0x2F, 0x30, 0x3F, 0x40, 0xFF],
      (i = 0x00 ∨ i = 0x0B ∨ (0x12 ≤ i.toNat ∧ i.toNat ≤ 0x1F) ∨ 0x29 ≤ i.toNat) := by decide

theorem witness_ReadReturnsItsRegister :
    0x00010103 = 0x00010003 + (if faulty.cfg.alphaShift = .arith then 0x100 else 0) +
      (if faulty.cfg.yuvArith = .binary64 then 0x200 else 0) + (if faulty.cfg.uvTrunc = .chromaFirst then 0x400 else 0) +
      (if faulty.cfg.f5Weights = .w421 then 0x800 else 0) ∧
    0x303 = (if faulty.lutValid then 1 else 0) + (if faulty.fault then 2 else 0) + 256 * faulty.faultCode.toNat := by
  decide

theorem witness_ReadOfCmdOrReservedRaisesBadReg : cold.fault = false ∧ faulty.fault = true ∧
    ∀ i ∈ [(0x01 : BitVec 8), 0x12, 0x1F, 0x29, 0x2F, 0x40, 0xFF],
      (i = 0x01 ∨ (0x12 ≤ i.toNat ∧ i.toNat ≤ 0x1F) ∨ (0x29 ≤ i.toNat ∧ i.toNat ≤ 0x2F) ∨ 0x40 ≤ i.toNat) := by decide

theorem witness_ReadAfterWriteReturnsTheWrittenValue : ∀ i ∈ [(0x03 : BitVec 8), 0x11, 0x20, 0x28],
    ((0x03 ≤ i.toNat ∧ i.toNat ≤ 0x11 ∧ i ≠ 0x0B) ∨ (0x20 ≤ i.toNat ∧ i.toNat ≤ 0x28)) := by decide

/-- A command and a read that raise a fault. -/
theorem witness_FaultIsPrecise : ∃ t u, exec .lookup cold = .next t ∧ exec (.rd 0x12) cold = .next u ∧
    cold.fault = false ∧ t.fault = true ∧ u.fault = true ∧ ∀ x, Instr.lookup ≠ .rd x :=
  ⟨_, _, rfl, rfl, rfl, rfl, rfl, fun _ h => by cases h⟩

theorem witness_FaultIsStickyUntilCleared : ∃ t u, exec .lookup faulty = .next t ∧ exec .clrfault faulty = .next u ∧
    faulty.fault = true := ⟨_, _, rfl, rfl, rfl⟩

theorem witness_EveryCommandIsIgnoredWhileFaulted : decodeCmd 0x00000008 = .ok .magnify ∧ faulty.fault = true := by decide

theorem witness_LutCommandsNeedTheLut : cold.fault = false ∧ cold.lutValid = false ∧
    ∃ pat, Instr.dispatch 0xFF = .dispatch pat := ⟨rfl, rfl, _, rfl⟩

/-- An instruction, a step and a reset that change LUT_VALID. -/
theorem witness_OnlyLutCommandsChangeLutValid : ∃ t u v, exec .lutInit cold = .next t ∧
    step (ready.withFetchWord 32 2) = .next u ∧ step { ready with inputs := [.reset] } = .next v ∧
    t.lutValid = true ∧ u.lutValid = false ∧ v.lutValid = false := ⟨_, _, _, rfl, rfl, rfl, rfl, rfl, rfl⟩

theorem witness_OnlyMagnifyChangesMemory : after (fun t => decide (t.mem = job.mem)) (exec .magnify job) = some false := by
  decide +kernel

theorem witness_OnlyTheirCommandsChangeResultAndOut :
    after (fun t => (decide (t.result = ready.result), decide (t.out = ready.out)))
      (exec (.wr 0x01 0x00000007) { ready with nb := rowOne }) = some (false, false) := by decide +kernel

theorem witness_CommandsKeepTheHostRegisters : ∃ t, decodeCmd 0x00000001 = .ok .lutInit ∧ exec .lutInit job = .next t :=
  ⟨_, rfl, rfl⟩

theorem witness_LutInitAndDeinitSetLutValid : cold.fault = false ∧ ready.fault = false := ⟨rfl, rfl⟩

theorem witness_LookupWritesTheEntryOfOpa : ready.fault = false ∧ ready.lutValid = true := ⟨rfl, rfl⟩

/-- Both clauses, with every channel at an edge. -/
theorem witness_LookupUnderExactArithmetic : ∀ u ∈ [UvTrunc.whole, UvTrunc.chromaFirst],
    let s : State := operands (chipOf .arith .exact u .w521) 0x12FF00FF 0 0
    s.fault = false ∧ s.lutValid = true ∧ s.cfg.yuvArith = .exact ∧ s.cfg.uvTrunc = u ∧
      255 = s.opa.toNat / 65536 % 256 ∧ 0 = s.opa.toNat / 256 % 256 ∧ 255 = s.opa.toNat % 256 := by decide

/-- Both clauses, and a tie. -/
theorem witness_RoundingIsToNearestEven : (2 ^ 53 - 1 < 2 ^ 53) ∧ (2 ^ 53 ≤ 2 ^ 53 + 1) ∧
    2 * ((roundNat53 (2 ^ 53 + 1) : Int) - (2 ^ 53 + 1 : Nat)).natAbs = 2 ^ (Nat.log2 (2 ^ 53 + 1) - 52) := by
  decide +kernel

theorem witness_ExactChannelsFitInAByte : ({ params with uvTrunc := .chromaFirst } : Params).yuvArith = .exact ∧
    ({ params with uvTrunc := .chromaFirst } : Params).uvTrunc = .chromaFirst := ⟨rfl, rfl⟩

/-- Both truncations; R is 0, G 0x48 and B 0x18, where Y is one less. -/
theorem witness_BinaryChannelsFitInAByte : ∀ u ∈ [UvTrunc.whole, UvTrunc.chromaFirst],
    let p : Params := { params with yuvArith := .binary64, uvTrunc := u }
    p.yuvArith = .binary64 ∧ p.uvTrunc = u ∧ 0 = rgbR 0x004818 ∧ 0x48 = rgbG 0x004818 ∧ 0x18 = rgbB 0x004818 ∧
      45 = (299 * 0 + 587 * 0x48 + 114 * 0x18 : Int) / 1000 ∧
      (-11832 : Int) = 500 * 0x18 - 169 * 0 - 331 * 0x48 ∧ (-32112 : Int) = 500 * 0 - 419 * 0x48 - 81 * 0x18 := by
  decide

theorem witness_DiffersIsTheUnshiftedComparison :
    0x008080 = (yuv ready.cfg ((0xFF000000 : Word).extractLsb' 0 24)).toNat ∧
    0x318080 = (yuv ready.cfg ((0xFF313131 : Word).extractLsb' 0 24)).toNat := by decide +kernel

/-- The clauses with hypotheses: (c) two thresholds in order and a difference under the larger, (d), (e). -/
theorem witness_DiffersHasTheStatedProperties :
    (let e : EffThr := effOf ready
     let e' : EffThr := effOf { ready with thrY := 49 }
     e.y ≤ e'.y ∧ e.u ≤ e'.u ∧ e.v ≤ e'.v ∧ e.a ≤ e'.a ∧ differs params e' 0xFF000000 0xFF323232 = true) ∧
    ((0xFF112233 : Word).extractLsb' 0 24 = (0xFE112233 : Word).extractLsb' 0 24 ∧
      differs params (effOf ready) 0xFF112233 0xFE112233 = true) ∧
    (yuv params ((0xFFFF0000 : Word).extractLsb' 0 24) = yuv params ((0xFFFF0000 : Word).extractLsb' 0 24) ∧
      yuv params ((0x00004818 : Word).extractLsb' 0 24) = yuv params ((0x00004818 : Word).extractLsb' 0 24) ∧
      (0xFFFF0000 : Word).extractLsb' 24 8 = (0xFFFF0000 : Word).extractLsb' 24 8) := by decide +kernel

theorem witness_DiffersWritesOneOrZero : ready.fault = false ∧ ready.lutValid = true := ⟨rfl, rfl⟩

theorem witness_ClassifyWritesThePattern : ready.fault = false ∧ ready.lutValid = true := ⟨rfl, rfl⟩

/-- For both weight sets of function 5, and a 2-input function. -/
theorem witness_LaneFormEqualsClosedForm : (5, 2, 1) = weights params .m421 ∧
    (4, 2, 1) = weights { params with f5Weights := .w421 } .m421 ∧ (3, 1, 0) = weights params .m31 ∧
    takesTwo .m31 = true := by decide

theorem witness_TwoInputMixCommandsAverage : cold.fault = false ∧ ready.fault = false := ⟨rfl, rfl⟩

/-- Both weight sets. -/
theorem witness_ThreeInputMixCommandsAverage : cold.fault = false ∧ cold.cfg.f5Weights = .w521 ∧
    (State.resetOf weights421).fault = false ∧ (State.resetOf weights421).cfg.f5Weights = .w421 := ⟨rfl, rfl, rfl, rfl⟩

theorem witness_MixerKeepsEqualInputs : params.f5Weights = .w521 ∧ takesTwo .m11 = true ∧
    ({ params with f5Weights := .w421 } : Params).f5Weights = .w421 ∧
    ({ params with f5Weights := .w421 } : Params).alphaShift = .arith := ⟨rfl, rfl, rfl, rfl⟩

/-- For both factors. -/
theorem witness_DispatchWritesItsOutputs :
    (ready.fault = false ∧ ready.lutValid = true ∧ 3 = (if ready.ctrl.getLsbD 2 then 4 else 3) ∧
      ill3 = (if ready.ctrl.getLsbD 2 then ready.cfg.table4 else ready.cfg.table3)) ∧
    (job.fault = false ∧ job.lutValid = true ∧ 4 = (if job.ctrl.getLsbD 2 then 4 else 3) ∧
      ill4 = (if job.ctrl.getLsbD 2 then job.cfg.table4 else job.cfg.table3)) :=
  ⟨⟨rfl, rfl, rfl, rfl⟩, rfl, rfl, rfl, rfl⟩

theorem witness_PixelWritesPatternAndOutputs : ready.fault = false ∧ ready.lutValid = true ∧
    3 = (if ready.ctrl.getLsbD 2 then 4 else 3) ∧
    ill3 = (if ready.ctrl.getLsbD 2 then ready.cfg.table4 else ready.cfg.table3) ∧
    0 = classify ready.cfg (effOf ready) ready.nb := ⟨rfl, rfl, rfl, rfl, by decide +kernel⟩

theorem witness_UniformNeighbourhoodStaysUniform : params.f5Weights = .w521 ∧ tableWf 4 ill4 = true ∧
    (∀ i : Fin 9, (Vector.replicate 9 0xFFFF0000 : Nbhd)[i] = 0xFFFF0000) ∧ 15 < 4 * 4 :=
  ⟨rfl, ill4_wf, by decide, by decide⟩

theorem witness_DispatchEqualsItsEntriesInTurn : ready.fault = false ∧ ready.lutValid = true ∧
    (8 : Fin 16).val < factor ready * factor ready := ⟨rfl, rfl, by decide⟩

theorem witness_TwoInputRecipesMixTheirNeighbours : (8 : BitVec 4).toNat < 9 ∧ (0 : BitVec 4).toNat < 9 := by decide

/-- Both weight sets, and indices at both edges. -/
theorem witness_ThreeInputRecipesMixTheirNeighbours : ∃ c1 c2 c3 : Word,
    c1 = resolver.latch.w[(0 : BitVec 4).toNat] ∧ c2 = resolver.latch.w[(4 : BitVec 4).toNat] ∧
    c3 = resolver.latch.w[(8 : BitVec 4).toNat] ∧ (8 : BitVec 4).toNat < 9 ∧ resolver.cfg.f5Weights = .w521 ∧
    (mixing weights421 0 0 0).cfg.f5Weights = .w421 :=
  ⟨_, _, _, rfl, rfl, rfl, by decide, rfl, rfl⟩

/-- Tables of a wrong length and with a malformed entry, legal parameters with the largest memory, the last entry of a
pattern, and a malformed recipe and entry. -/
theorem witness_IllFormedRecipesAndEntriesAreRefused :
    (({ params with table3 := [] } : Params).table3.length ≠ 256 * 9 ∧
      ({ params with table4 := ill3 } : Params).table4.length ≠ 256 * 16 ∧ entryWf 0x0B = false ∧
      0x0B ∈ ({ params with table3 := [0x0B] } : Params).table3 ++ params.table4) ∧
    (params.table3.length = 256 * 9 ∧ params.table4.length = 256 * 16 ∧
      (∀ e ∈ params.table3 ++ params.table4, entryWf e = true) ∧
      1 ≤ ({ params with memWords := 2 ^ 32 } : Params).memWords ∧ 2 ^ 32 ≤ 2 ^ 32) ∧
    8 < factor ready * factor ready ∧
    ((Instr.recipeMix31 9 0).wf = false ∧ ∀ index data, Instr.recipeMix31 9 0 ≠ .wr index data) ∧
    ((Instr.entryCond 0 0 9 0).wf = false ∧ ∀ index data, Instr.entryCond 0 0 9 0 ≠ .wr index data) :=
  ⟨⟨by decide, by decide +kernel, by decide, List.mem_append_left _ (List.mem_singleton.mpr rfl)⟩,
    ⟨by decide +kernel, by decide +kernel, fun e he => by
      have h3 := ill3_wf
      have h4 := ill4_wf
      simp only [tableWf, Bool.and_eq_true, List.all_eq_true] at h3 h4
      exact (List.mem_append.mp he).elim (h3.2 e) (h4.2 e), by decide, Nat.le_refl _⟩,
    by decide, ⟨by decide, fun _ _ h => by cases h⟩, by decide, fun _ _ h => by cases h⟩

theorem witness_PlainEntryAppliesItsRecipe : recipeWf 0x0141 = true := by decide

/-- Both clauses. -/
theorem witness_ConditionalEntryTestsTwoNeighbours : (8 : BitVec 4).toNat < 9 ∧ (0 : BitVec 4).toNat < 9 ∧
    recipeWf 0x0000 = true ∧ recipeWf 0x1342 = true ∧ resolver.lutValid = true ∧ cold.lutValid = false ∧
    cold.fault = false := by decide

/-- A job that passes every check, and one for each check that fails. -/
theorem witness_MagnifyChecksInOrder :
    (job.fault = false ∧ 4 = (if job.ctrl.getLsbD 2 then 4 else 3) ∧ 2 = job.width.toNat * job.height.toNat ∧
      32 = (job.width.toNat * 4) * (job.height.toNat * 4) ∧ job.lutValid = true ∧
      ¬ (job.srcLen.toNat < 2 ∨ job.dstLen.toNat < 32) ∧
      ¬ (job.srcBase.toNat + 2 > job.cfg.memWords ∨ job.dstBase.toNat + 32 > job.cfg.memWords) ∧
      ¬ (job.srcBase.toNat < job.dstBase.toNat + 32 ∧ job.dstBase.toNat < job.srcBase.toNat + 2)) ∧
    cold.lutValid = false ∧ 0 = ready.width.toNat * ready.height.toNat ∧
    ({ job with dstLen := 31 } : State).dstLen.toNat < 32 ∧
    ({ job with dstBase := 225 } : State).dstBase.toNat + 32 > job.cfg.memWords ∧
    ({ job with dstBase := 1 } : State).dstBase.toNat < job.srcBase.toNat + 2 :=
  ⟨⟨rfl, rfl, rfl, rfl, rfl, by decide, by decide, by decide⟩, rfl, rfl, by decide, by decide, by decide⟩

/-- The last sub-pixel of the last pixel, and the bytes next to the destination extent. -/
theorem witness_MagnifyWritesTheMagnifiedImage : job.fault = false ∧ job.lutValid = true ∧ job.mem.wf = true ∧
    4 = factor job ∧ 32 = (job.width.toNat * 4) * (job.height.toNat * 4) ∧ magnifyCheck job = none ∧
    job.width ≠ 0 ∧ job.height ≠ 0 ∧ 1 < job.width.toNat ∧ 0 < job.height.toNat ∧
    63 < 4 * job.dstBase.toNat ∧ 4 * (job.dstBase.toNat + 32) ≤ 192 :=
  ⟨rfl, rfl, by decide, rfl, rfl, by decide, by decide, by decide, by decide, by decide, by decide, by decide⟩

/-- The east neighbour of the last column, clamped and wrapped. -/
theorem witness_GatherWrapsOrClampsInsideTheSource :
    (3 = (grid 0).width.toNat ∧ 2 = (grid 0).height.toNat ∧ (1 : Int) = ((5 : Fin 9).val % 3 : Nat) - 1 ∧
      (0 : Int) = ((5 : Fin 9).val / 3 : Nat) - 1 ∧
      (2 : Int) = (if (0 : Int) ≤ 2 + 1 ∧ (2 : Int) + 1 < 3 then 2 + 1 else if (grid 0).ctrl.getLsbD 0 then (2 + 1) % 3 else 2)) ∧
    (0 : Int) =
      (if (0 : Int) ≤ 2 + 1 ∧ (2 : Int) + 1 < 3 then 2 + 1 else if (grid 1).ctrl.getLsbD 0 then (2 + 1) % 3 else 2) ∧
    (1 : Int) =
      (if (0 : Int) ≤ 1 + 0 ∧ (1 : Int) + 0 < 2 then 1 + 0 else if (grid 1).ctrl.getLsbD 1 then (1 + 0) % 2 else 1) := by
  decide

theorem witness_DestinationMapIsOneToOneOnto : 1 < widthOf job ∧ 0 < heightOf job ∧ 15 < factor job * factor job ∧
    job.dstBase.toNat ≤ 0x10 ∧ 0x2F < job.dstBase.toNat + destExtent job := by decide

theorem witness_UniformImageMagnifiesToUniformImage : redJob.fault = false ∧ redJob.lutValid = true ∧
    redJob.mem.wf = true ∧ redJob.cfg.f5Weights = .w521 ∧ magnifyCheck redJob = none ∧
    ∀ a, redJob.srcBase.toNat ≤ a → a < redJob.srcBase.toNat + sourceExtent redJob → memRead redJob a = 0xFFFF0000 := by
  refine ⟨rfl, rfl, by decide, rfl, by decide, fun a _ ha => ?_⟩
  have h : a < 2 := ha
  interval_cases a <;> decide

end Sys2Proof.Tests
end

/-!
PROOFS. The register index space (R20, R37, R38): the index of each register, what a host write and a host read do by the
class of their register, and the composed words CAPS and STATUS as sums of their fields.
-/

namespace Sys2Proof.Machine

/-! ## The register at an index -/

/-- The index of a register (R20). -/
def regIndex (r : Reg) : BitVec 8 :=
  match r with
  | .caps => 0x00
  | .cmd => 0x01
  | .status => 0x02
  | .ctrl => 0x03
  | .thrY => 0x04
  | .thrU => 0x05
  | .thrV => 0x06
  | .thrA => 0x07
  | .opa => 0x08
  | .opb => 0x09
  | .opc => 0x0A
  | .result => 0x0B
  | .srcBase => 0x0C
  | .srcLen => 0x0D
  | .dstBase => 0x0E
  | .dstLen => 0x0F
  | .width => 0x10
  | .height => 0x11
  | .nb i => BitVec.ofNat 8 (0x20 + i.val)
  | .out k => BitVec.ofNat 8 (0x30 + k.val)

theorem regOf_nb : ∀ i : Fin 9, regOf (BitVec.ofNat 8 (0x20 + i.val)) = some (.nb i) := by decide

theorem regOf_out : ∀ k : Fin 16, regOf (BitVec.ofNat 8 (0x30 + k.val)) = some (.out k) := by decide

/-- The map of R20 read from the register to its index. -/
theorem regOf_regIndex (r : Reg) : regOf (regIndex r) = some r := by
  cases r with
  | nb i => exact regOf_nb i
  | out k => exact regOf_out k
  | _ => rfl

/-- No two indices hold the same register. -/
theorem eq_regIndex_of_regOf {i : BitVec 8} {r : Reg} (h : regOf i = some r) : i = regIndex r := by
  unfold regOf at h
  apply BitVec.eq_of_toNat_eq
  split at h
  case h_19 =>
    split at h
    · next hn =>
      obtain rfl := Option.some.inj h
      simp only [regIndex, BitVec.toNat_ofNat]
      omega
    · split at h
      · next hn =>
        obtain rfl := Option.some.inj h
        simp only [regIndex, BitVec.toNat_ofNat]
        omega
      · cases h
  all_goals
    next hi =>
      obtain rfl := Option.some.inj h
      exact hi

/-- The indices R38 reserves. -/
theorem regOf_reserved {i : BitVec 8}
    (h : (0x12 ≤ i.toNat ∧ i.toNat ≤ 0x1F) ∨ (0x29 ≤ i.toNat ∧ i.toNat ≤ 0x2F) ∨ 0x40 ≤ i.toNat) : regOf i = none := by
  have hnb : ¬ (0x20 ≤ i.toNat ∧ i.toNat ≤ 0x28) := by omega
  have hout : ¬ (0x30 ≤ i.toNat ∧ i.toNat ≤ 0x3F) := by omega
  unfold regOf
  split
  case h_19 => rw [dif_neg hnb, dif_neg hout]
  all_goals omega

/-- The indices of OUT0 to OUT15. -/
theorem regOf_outRange {i : BitVec 8} (h : 0x30 ≤ i.toNat ∧ i.toNat ≤ 0x3F) : ∃ k, regOf i = some (.out k) := by
  have hi : i = BitVec.ofNat 8 (0x30 + (i.toNat - 0x30)) := by
    rw [Nat.add_sub_cancel' h.1, BitVec.ofNat_toNat, BitVec.setWidth_eq]
  exact ⟨_, (congrArg regOf hi).trans (regOf_out ⟨i.toNat - 0x30, by omega⟩)⟩

/-! ## Host writes and reads by the class of the register -/

/-- A write of an RW register is its plain store (R37). -/
theorem exec_wr_rw {i : BitVec 8} {r : Reg} (h : regOf i = some r) (hw : isRw r = true) (v : Word) (s : State) :
    exec (.wr i v) s = .next (storeReg r v s) := by
  show execWr i v s = _
  unfold execWr
  rw [h]
  cases r with
  | cmd | status => cases hw
  | _ => exact if_pos hw

/-- A write of a read-only or reserved index raises BAD_REG (R37, R38). -/
theorem exec_wr_badReg {i : BitVec 8}
    (h : regOf i = none ∨ ∃ r, regOf i = some r ∧ isRw r = false ∧ r ≠ .cmd ∧ r ≠ .status) (v : Word) (s : State) :
    exec (.wr i v) s = .next (raiseFault .badReg s) := by
  show execWr i v s = _
  unfold execWr
  obtain h | ⟨r, h, hw, hcmd, hstatus⟩ := h
  · rw [h]; rfl
  · rw [h]
    cases r with
    | cmd => exact absurd rfl hcmd
    | status => exact absurd rfl hstatus
    | _ => exact if_neg (Bool.eq_false_iff.mp hw)

/-- A write of STATUS is the W1C action of R24. -/
theorem exec_wr_status (v : Word) (s : State) : exec (.wr 0x02 v) s = .next (writeStatus v s) := rfl

/-- clrfault is the write of 2 to STATUS (R60). -/
theorem exec_clrfault (s : State) : exec .clrfault s = .next (writeStatus 2 s) := rfl

theorem writeStatus_of_set {v : Word} (h : v.getLsbD 1 = true) (s : State) : writeStatus v s = clearFault s := if_pos h

theorem writeStatus_of_clear {v : Word} (h : v.getLsbD 1 = false) (s : State) : writeStatus v s = s :=
  if_neg (Bool.eq_false_iff.mp h)

/-- A read of a register other than CMD answers its value (R112). -/
theorem exec_rd_reg {i : BitVec 8} {r : Reg} (h : regOf i = some r) (hr : r ≠ .cmd) (s : State) :
    exec (.rd i) s = .next (respond (readReg s r) s) := by
  obtain ⟨-, hnone | hcmd⟩ | ⟨r', hr', -, he⟩ := execRd_next i s
  · rw [h] at hnone; cases hnone
  · rw [h] at hcmd; exact absurd (Option.some.inj hcmd) hr
  · rw [h] at hr'
    obtain rfl := Option.some.inj hr'
    exact he

/-- A read of CMD or of a reserved index answers 0 and raises BAD_REG (R112). -/
theorem exec_rd_badReg {i : BitVec 8} (h : regOf i = none ∨ regOf i = some .cmd) (s : State) :
    exec (.rd i) s = .next (respond 0 (raiseFault .badReg s)) := by
  show execRd i s = _
  unfold execRd
  obtain h | h := h <;> rw [h]

/-! ## The composed words -/

/-- R25: CTRL keeps bits 2:0. -/
theorem and_ctrlMask (v : Word) : v &&& ctrlMask = (v.extractLsb' 0 3).setWidth 32 := by
  have hmod : (v &&& ctrlMask).toNat = v.toNat % 2 ^ 3 := Nat.and_two_pow_sub_one_eq_mod v.toNat 3
  apply BitVec.eq_of_toNat_eq
  rw [hmod]
  simp
  omega

theorem toNat_append_add {m n : Nat} (x : BitVec m) (y : BitVec n) :
    (x ++ y).toNat = x.toNat * 2 ^ n + y.toNat := by
  rw [BitVec.toNat_append, ← Nat.shiftLeft_add_eq_or_of_lt y.isLt, Nat.shiftLeft_eq]

/-- R23: STATUS as the sum of its fields. -/
theorem statusWord_toNat (s : State) :
    (statusWord s).toNat = 256 * s.faultCode.toNat + 2 * s.fault.toNat + s.lutValid.toNat := by
  have h : ((0 : BitVec 16) ++ s.faultCode ++ (0 : BitVec 6) ++ BitVec.ofBool s.fault ++
      BitVec.ofBool s.lutValid).toNat = 256 * s.faultCode.toNat + 2 * s.fault.toNat + s.lutValid.toNat := by
    simp only [toNat_append_add, BitVec.toNat_ofBool]
    simp
    omega
  exact h

theorem statusWord_eq_ofNat (s : State) :
    statusWord s = BitVec.ofNat 32
      ((if s.lutValid then 1 else 0) + (if s.fault then 2 else 0) + 256 * s.faultCode.toNat) := by
  have hcode := s.faultCode.isLt
  apply BitVec.eq_of_toNat_eq
  rw [statusWord_toNat, BitVec.toNat_ofNat]
  cases s.lutValid <;> cases s.fault <;> simp <;> omega

/-- R21: CAPS as the sum of its constant fields and the readings of the parameters. -/
theorem capsWord_eq_ofNat (p : Params) :
    capsWord p = BitVec.ofNat 32
      (0x00010003 + (if p.alphaShift = .arith then 0x100 else 0) + (if p.yuvArith = .binary64 then 0x200 else 0) +
        (if p.uvTrunc = .chromaFirst then 0x400 else 0) + (if p.f5Weights = .w421 then 0x800 else 0)) := by
  unfold capsWord
  cases p.alphaShift <;> cases p.yuvArith <;> cases p.uvTrunc <;> cases p.f5Weights <;> rfl

end Sys2Proof.Machine

/-!
PROOFS. What decodes encodes back (R53, R54, R59), as far as the statements on the state need it: command words and bus
writes; and which rows of the opcode table the decoders of recipes and entries give.
-/

namespace Sys2Proof

/-- The instruction is a row of the format cmd32. -/
def Instr.isCommand (i : Instr) : Bool :=
  match encode i with
  | .cmd _ => true
  | .recipe _ | .entry _ | .bus _ => false

/-- The instruction is a row of the formats recipe16 or entry64, a single step of the resolver. -/
def Instr.isResolverRow (i : Instr) : Bool :=
  match encode i with
  | .recipe _ | .entry _ => true
  | .cmd _ | .bus _ => false

/-- The opcode map read backwards: OP is the word's, and PAT is 0 for every command but DISPATCH. -/
theorem encode_of_opcodeMap {pat op : BitVec 8} {i : Instr} (h : opcodeMap pat op.toNat = some i) :
    encode i = .cmd (cmdWord op (if op = 6 then pat else 0)) := by
  have hval : op = BitVec.ofNat 8 op.toNat := by simp
  unfold opcodeMap at h
  split at h
  case h_20 => cases h
  all_goals
    next hop =>
      obtain rfl := Option.some.inj h
      rw [hop] at hval
      subst hval
      rfl

/-- What a command word decodes to encodes back to the word. -/
theorem encode_of_decodeCmd {v : BitVec 32} {i : Instr} (h : decodeCmd v = .ok i) : encode i = .cmd v := by
  unfold decodeCmd at h
  split at h
  · cases h
  · next hhigh =>
    split at h
    · cases h
    · next j hj =>
      split at h
      · cases h
      · next hpat =>
        injection h with h
        subst h
        have hfield : (if cmdOp v = 6 then cmdPat v else 0) = cmdPat v := by
          split
          · rfl
          · next hop => exact (not_not.mp fun hne => hpat ⟨hop, hne⟩).symm
        rw [encode_of_opcodeMap hj, hfield, cmdWord_fields v (not_not.mp hhigh)]

/-- Command words decode to command rows. -/
theorem isCommand_of_decodeCmd {v : BitVec 32} {i : Instr} (h : decodeCmd v = .ok i) : i.isCommand = true := by
  unfold Instr.isCommand
  rw [encode_of_decodeCmd h]

/-- Recipe words decode to resolver rows. -/
theorem isResolverRow_of_decodeRecipe {r : BitVec 16} {i : Instr} (h : decodeRecipe r = .ok i) :
    i.isResolverRow = true := by
  unfold decodeRecipe at h
  split at h
  · split at h
    · next j hj =>
      injection h with h
      subst h
      unfold recipeInstr at hj
      split at hj
      case h_12 => cases hj
      all_goals
        obtain rfl := Option.some.inj hj
        rfl
    · cases h
  · cases h

/-- Table entries decode to resolver rows. -/
theorem isResolverRow_of_decodeEntry {e : BitVec 64} {i : Instr} (h : decodeEntry e = .ok i) :
    i.isResolverRow = true := by
  unfold decodeEntry at h
  split at h
  · split at h <;> (injection h with h; subst h; rfl)
  · cases h

/-- A bus write is its INDEX and DATA. -/
theorem busWrite_fields {t : BitVec 41} (h : busIsWrite t = true) : busWrite (busIndex t) (busData t) = t := by
  apply BitVec.eq_of_getLsbD_eq
  intro i hi
  simp only [busIsWrite] at h
  simp only [busWrite, busIndex, busData, BitVec.getLsbD_append, BitVec.getLsbD_extractLsb']
  interval_cases i <;> simp [h]

/-- The one transaction that decodes to a given write. -/
theorem eq_busWrite_of_decodeBus {t : BitVec 41} {i : BitVec 8} {v : Word} (h : decodeBus t = .wr i v) :
    t = busWrite i v := by
  unfold decodeBus at h
  split at h
  · next hw =>
    split at h
    · cases h
    · injection h with hi hv
      rw [← hi, ← hv, busWrite_fields hw]
  · cases h

/-- No bus transaction is a command row by itself. -/
theorem isCommand_decodeBus (t : BitVec 41) : (decodeBus t).isCommand = false := by
  unfold decodeBus
  split
  · split <;> rfl
  · rfl

end Sys2Proof

/-!
PROOFS. What one command, one instruction and one step can do, each said once as a relation between the state before and
the state after; the statements on what changes which state are case splits over these relations.
-/

namespace Sys2Proof.Machine

/-! ## The fields MAGNIFY's loops leave (R102) -/

@[simp] theorem magnifyImage_chip (s : State) : (magnifyImage s).chip = s.chip := by rw [magnifyImage_eq]
@[simp] theorem magnifyImage_cfg (s : State) : (magnifyImage s).cfg = s.cfg := by rw [magnifyImage_eq]
@[simp] theorem magnifyImage_ctrl (s : State) : (magnifyImage s).ctrl = s.ctrl := by rw [magnifyImage_eq]
@[simp] theorem magnifyImage_thrY (s : State) : (magnifyImage s).thrY = s.thrY := by rw [magnifyImage_eq]
@[simp] theorem magnifyImage_thrU (s : State) : (magnifyImage s).thrU = s.thrU := by rw [magnifyImage_eq]
@[simp] theorem magnifyImage_thrV (s : State) : (magnifyImage s).thrV = s.thrV := by rw [magnifyImage_eq]
@[simp] theorem magnifyImage_thrA (s : State) : (magnifyImage s).thrA = s.thrA := by rw [magnifyImage_eq]
@[simp] theorem magnifyImage_opa (s : State) : (magnifyImage s).opa = s.opa := by rw [magnifyImage_eq]
@[simp] theorem magnifyImage_opb (s : State) : (magnifyImage s).opb = s.opb := by rw [magnifyImage_eq]
@[simp] theorem magnifyImage_opc (s : State) : (magnifyImage s).opc = s.opc := by rw [magnifyImage_eq]
@[simp] theorem magnifyImage_result (s : State) : (magnifyImage s).result = s.result := by rw [magnifyImage_eq]
@[simp] theorem magnifyImage_srcBase (s : State) : (magnifyImage s).srcBase = s.srcBase := by rw [magnifyImage_eq]
@[simp] theorem magnifyImage_srcLen (s : State) : (magnifyImage s).srcLen = s.srcLen := by rw [magnifyImage_eq]
@[simp] theorem magnifyImage_dstBase (s : State) : (magnifyImage s).dstBase = s.dstBase := by rw [magnifyImage_eq]
@[simp] theorem magnifyImage_dstLen (s : State) : (magnifyImage s).dstLen = s.dstLen := by rw [magnifyImage_eq]
@[simp] theorem magnifyImage_width (s : State) : (magnifyImage s).width = s.width := by rw [magnifyImage_eq]
@[simp] theorem magnifyImage_height (s : State) : (magnifyImage s).height = s.height := by rw [magnifyImage_eq]
@[simp] theorem magnifyImage_nb (s : State) : (magnifyImage s).nb = s.nb := by rw [magnifyImage_eq]
@[simp] theorem magnifyImage_out (s : State) : (magnifyImage s).out = s.out := by rw [magnifyImage_eq]
@[simp] theorem magnifyImage_lutValid (s : State) : (magnifyImage s).lutValid = s.lutValid := by rw [magnifyImage_eq]
@[simp] theorem magnifyImage_fault (s : State) : (magnifyImage s).fault = s.fault := by rw [magnifyImage_eq]
@[simp] theorem magnifyImage_faultCode (s : State) : (magnifyImage s).faultCode = s.faultCode := by rw [magnifyImage_eq]
@[simp] theorem magnifyImage_eff (s : State) : (magnifyImage s).eff = s.eff := by rw [magnifyImage_eq]
@[simp] theorem magnifyImage_lastRead (s : State) : (magnifyImage s).lastRead = s.lastRead := by rw [magnifyImage_eq]
@[simp] theorem magnifyImage_inputs (s : State) : (magnifyImage s).inputs = s.inputs := by rw [magnifyImage_eq]
@[simp] theorem magnifyImage_freeIx (s : State) : (magnifyImage s).freeIx = s.freeIx := by rw [magnifyImage_eq]

/-! ## Commands -/

/-- What a command row can do to the core: nothing (NOP, a pending fault, an empty image), raise a fault, set or clear
LUT_VALID, write RESULT or OUT where R29 or R33 lists it and latch thresholds, or run MAGNIFY's loops. Only the first is
open to a command met while FAULT = 1 (R117). -/
inductive CommandEffect : Instr → State → State → Prop
  | unchanged (i : Instr) (s : State) : CommandEffect i s s
  | raised {s : State} (i : Instr) (c : FaultCode) (hf : s.fault = false) : CommandEffect i s (raiseFault c s)
  | lutFilled {s : State} (hf : s.fault = false) : CommandEffect .lutInit s { s with lutValid := true }
  | lutReleased {s : State} (hf : s.fault = false) : CommandEffect .lutDeinit s { s with lutValid := false }
  | computed {i : Instr} {s : State} (hf : s.fault = false) (e : EffThr) (r : Word) (o : Vector Word 16)
      (hr : r = s.result ∨ writesResult i = true) (ho : o = s.out ∨ writesOut i = true) :
      CommandEffect i s { s with eff := e, result := r, out := o }
  | magnified {s : State} (hf : s.fault = false) (hl : s.lutValid = true) (hc : magnifyCheck s = none)
      (he : sourceExtent s ≠ 0) : CommandEffect .magnify s (magnifyImage (latchThr s))

/-- A command that runs straight to its next state is ignored, or reaches that state with FAULT = 0. -/
theorem commandEffect_of_command {i : Instr} {s t u : State} (h : command s (.next u) = .next t)
    (hu : s.fault = false → CommandEffect i s u) : CommandEffect i s t := by
  obtain ⟨-, rfl⟩ | ⟨hf, h⟩ := command_next h
  · exact .unchanged i t
  · injection h with h
    exact h ▸ hu hf

/-- A command of the LUT is ignored, raises LUT_NOT_READY, or reaches its next state with FAULT = 0. -/
theorem commandEffect_of_lutCommand {i : Instr} {s t u : State} (h : lutCommand s (.next u) = .next t)
    (hu : s.fault = false → CommandEffect i s u) : CommandEffect i s t := by
  obtain ⟨-, rfl⟩ | ⟨hf, -, rfl⟩ | ⟨hf, -, h⟩ := lutCommand_next h
  · exact .unchanged i t
  · exact .raised i .lutNotReady hf
  · injection h with h
    exact h ▸ hu hf

/-- A MIX command computes RESULT. -/
theorem commandEffect_of_mixCommand {i : Instr} {f : MixFn} {s t : State} (hi : writesResult i = true)
    (h : mixCommand f s = .next t) : CommandEffect i s t :=
  commandEffect_of_command h fun hf => .computed hf s.eff _ s.out (.inr hi) (.inl rfl)

/-- What MAGNIFY can do. -/
theorem commandEffect_of_execMagnify {s t : State} (h : execMagnify s = .next t) : CommandEffect .magnify s t := by
  obtain ⟨-, rfl⟩ | ⟨hf, -, rfl⟩ | ⟨hf, -, c, -, rfl⟩ | ⟨-, -, -, -, rfl⟩ | ⟨hf, hl, hc, he, rfl⟩ := execMagnify_next h
  · exact .unchanged _ t
  · exact .raised _ .lutNotReady hf
  · exact .raised _ c hf
  · exact .unchanged _ t
  · exact .magnified hf hl hc he

/-- Every command row does one of the things CommandEffect lists. -/
theorem commandEffect_of_exec {i : Instr} {s t : State} (hi : i.isCommand = true) (h : exec i s = .next t) :
    CommandEffect i s t := by
  cases i with
  | nop => exact commandEffect_of_command h fun _ => .unchanged _ s
  | lutInit => exact commandEffect_of_command h fun hf => .lutFilled hf
  | lutDeinit => exact commandEffect_of_command h fun hf => .lutReleased hf
  | lookup => exact commandEffect_of_lutCommand h fun hf => .computed hf s.eff _ s.out (.inr rfl) (.inl rfl)
  | differs | classify =>
    exact commandEffect_of_lutCommand h fun hf => .computed hf (effOf s) _ s.out (.inr rfl) (.inl rfl)
  | dispatch pat =>
    exact commandEffect_of_lutCommand h fun hf => .computed hf (effOf s) s.result _ (.inl rfl) (.inr rfl)
  | pixel => exact commandEffect_of_lutCommand h fun hf => .computed hf (effOf s) _ _ (.inr rfl) (.inr rfl)
  | magnify => exact commandEffect_of_execMagnify h
  | mix31 | mix211 | mix71 | mix277 | mix53 | mix421 | mix611 | mix233 | mix1411 | mix11 =>
    exact commandEffect_of_mixCommand rfl h
  | recipeCopy | recipeMix31 | recipeMix211 | recipeMix71 | recipeMix277 | recipeMix53 | recipeMix421 | recipeMix611
  | recipeMix233 | recipeMix1411 | recipeMix11 | entryPlain | entryCond | rd | wr | clrfault => cases hi

/-! ## Instructions -/

/-- What an instruction of any format can do to the core: what a command row does, by itself or as the CMD write of its
word; raise a fault; store to an RW register; the W1C action on STATUS; answer a read; or move the resolver's latch. -/
inductive ExecEffect : Instr → State → State → Prop
  | command {i : Instr} {s t : State} (hi : i.isCommand = true) (h : CommandEffect i s t) : ExecEffect i s t
  | cmdWrite {v : Word} {j : Instr} {s t : State} (hd : decodeCmd v = .ok j) (h : CommandEffect j s t) :
      ExecEffect (.wr 0x01 v) s t
  | cmdIgnored {s : State} (v : Word) (hf : s.fault = true) : ExecEffect (.wr 0x01 v) s s
  | raised {i : Instr} (s : State) (c : FaultCode) (hi : ∀ x, i ≠ .rd x) : ExecEffect i s (raiseFault c s)
  | stored {x : BitVec 8} {r : Reg} (v : Word) (s : State) (hx : regOf x = some r) (hr : isRw r = true) :
      ExecEffect (.wr x v) s (storeReg r v s)
  | statusWritten {i : Instr} (v : Word) (s : State) (hi : i = .wr 0x02 v ∨ i = .clrfault ∧ v = 2) :
      ExecEffect i s (writeStatus v s)
  | answered {x : BitVec 8} {r : Reg} (s : State) (hx : regOf x = some r) : ExecEffect (.rd x) s (respond (readReg s r) s)
  | readRefused (x : BitVec 8) (s : State) : ExecEffect (.rd x) s (respond 0 (raiseFault .badReg s))
  | resolved {i : Instr} (s : State) (hi : i.isResolverRow = true) (l : Latch) : ExecEffect i s { s with latch := l }

/-- What a host write can do. -/
theorem execEffect_of_execWr {x : BitVec 8} {v : Word} {s t : State} (h : execWr x v s = .next t) :
    ExecEffect (.wr x v) s t := by
  have hne : ∀ y, Instr.wr x v ≠ .rd y := by intro y hy; cases hy
  obtain ⟨rfl, -⟩ | ⟨hx, h⟩ | ⟨hx, rfl⟩ | ⟨r, hx, hr, rfl⟩ := execWr_next h
  · exact .raised s .badReg hne
  · obtain rfl := eq_regIndex_of_regOf hx
    obtain ⟨hf, rfl⟩ | ⟨-, -, rfl⟩ | ⟨-, j, hd, h⟩ := writeCmd_next h
    · exact .cmdIgnored v hf
    · exact .raised s .illegalCmd hne
    · rw [runCommand_eq_exec s hd] at h
      exact .cmdWrite hd (commandEffect_of_exec (isCommand_of_decodeCmd hd) h)
  · obtain rfl := eq_regIndex_of_regOf hx
    exact .statusWritten v s (.inl rfl)
  · exact .stored v s hx hr

/-- What a host read can do. -/
theorem execEffect_of_execRd {x : BitVec 8} {s t : State} (h : execRd x s = .next t) : ExecEffect (.rd x) s t := by
  obtain ⟨he, -⟩ | ⟨r, hx, -, he⟩ := execRd_next x s
  · rw [he] at h
    injection h with h
    exact h ▸ .readRefused x s
  · rw [he] at h
    injection h with h
    exact h ▸ .answered s hx

/-- A recipe moves the latch only. -/
theorem execEffect_of_recipeStep {i : Instr} {r : BitVec 16} {s t : State} (hi : i.isResolverRow = true)
    (h : recipeStep r s = .next t) : ExecEffect i s t := by
  obtain ⟨-, rfl⟩ := recipeStep_next h
  exact .resolved s hi _

/-- An entry raises LUT_NOT_READY or moves the latch only. -/
theorem execEffect_of_entryStep {i : Instr} {e : BitVec 64} {s t : State} (hi : i.isResolverRow = true)
    (h : entryStep e s = .next t) : ExecEffect i s t := by
  obtain ⟨-, ⟨-, -, rfl⟩ | ⟨-, rfl⟩⟩ := entryStep_next h
  · refine .raised s .lutNotReady ?_
    rintro x rfl
    cases hi
  · exact .resolved s hi _

/-- Every instruction does one of the things ExecEffect lists. -/
theorem execEffect_of_exec {i : Instr} {s t : State} (h : exec i s = .next t) : ExecEffect i s t := by
  cases i with
  | rd x => exact execEffect_of_execRd h
  | wr x v => exact execEffect_of_execWr h
  | clrfault =>
    injection h with h
    exact h ▸ .statusWritten 2 s (.inr ⟨rfl, rfl⟩)
  | entryPlain | entryCond => exact execEffect_of_entryStep rfl h
  | recipeCopy => exact execEffect_of_recipeStep (r := recipeWord 0 0 0 0) rfl h
  | recipeMix31 | recipeMix211 | recipeMix71 | recipeMix277 | recipeMix53 | recipeMix421 | recipeMix611 | recipeMix233
  | recipeMix1411 | recipeMix11 => exact execEffect_of_recipeStep rfl h
  | _ => exact .command rfl (commandEffect_of_exec rfl h)

/-! ## Steps -/

/-- What a step can do: idle, or take the oldest input and run a bus transaction, a row of the resolver, the reset input, a
transaction cut short by reset, or a store of the host's. -/
inductive StepEffect (s : State) : State → Prop
  | idle (hi : s.inputs = []) : StepEffect s s
  | bus {c : BitVec 41} {rest : List Input} {t : State} (hi : s.inputs = .bus c :: rest)
      (h : exec (decodeBus c) { s with inputs := rest } = .next t) : StepEffect s t
  | resolver {i : Instr} {rest : List Input} {t : State} (hi : i.isResolverRow = true)
      (h : exec i { s with inputs := rest } = .next t) : StepEffect s t
  | reset {rest : List Input} (hi : s.inputs = .reset :: rest) : StepEffect s (resetInput { s with inputs := rest })
  | cut {c : BitVec 41} {rest : List Input} {u : State} (hi : s.inputs = .cut c :: rest)
      (hu : exec (decodeBus c) { s with inputs := rest } = .next u) :
      StepEffect s (afterCut c { s with inputs := rest }
        (if startsMagnify c { s with inputs := rest } then cutMemory { s with inputs := rest } u.mem else s.mem))
  | store {a v : BitVec 32} {rest : List Input} (hi : s.inputs = .store a v :: rest) (ha : a.toNat < s.cfg.memWords) :
      StepEffect s { s with inputs := rest, mem := s.mem.writeWord s.cfg.byteOrder a.toNat v }

/-- Every step does one of the things StepEffect lists. -/
theorem stepEffect_of_step {s t : State} (h : step s = .next t) : StepEffect s t := by
  obtain ⟨hi, rfl⟩ | ⟨input, rest, hi, h⟩ := step_next h
  · exact .idle hi
  · cases input with
    | bus c => exact .bus hi h
    | reset =>
      injection h with h
      exact h ▸ .reset hi
    | cut c =>
      obtain ⟨u, hu, rfl⟩ := runCut_next h
      exact .cut hi hu
    | store a v =>
      obtain ⟨ha, rfl⟩ := runStore_next h
      exact .store hi ha
    | entry e =>
      obtain ⟨i, hd, h⟩ := runEntry_next h
      exact .resolver (isResolverRow_of_decodeEntry hd) h
    | recipe r =>
      obtain ⟨i, hd, h⟩ := runRecipe_next h
      exact .resolver (isResolverRow_of_decodeRecipe hd) h

end Sys2Proof.Machine

/-!
PROOFS. The invariant of the state: every operation that changes a field it speaks of keeps it. For MAGNIFY, whole (R102) or
cut short (R128), the checks of R103 keep every write inside pixel memory.
-/

namespace Sys2Proof.Machine

/-! ## MAGNIFY's destination lies inside pixel memory (R103, R106) -/

/-- Row Y and column X of a W by H rectangle, row by row. -/
theorem mul_add_lt_mul {W H X Y : Nat} (hX : X < W) (hY : Y < H) : Y * W + X < W * H :=
  calc Y * W + X < Y * W + W := by omega
    _ = (Y + 1) * W := by ring
    _ ≤ H * W := Nat.mul_le_mul_right W hY
    _ = W * H := Nat.mul_comm H W

/-- Position c of a side of n pixels and sub-position r of N give a position of the side of n * N. -/
theorem mul_factor_add_lt {n N c r : Nat} (hc : c < n) (hr : r < N) : c * N + r < n * N :=
  (mul_add_lt_mul hr hc).trans_eq (Nat.mul_comm N n)

/-- The N * N sub-pixels of a source pixel lie in the destination extent. -/
theorem destAddr_lt {s : State} {x y k : Nat} (hx : x < widthOf s) (hy : y < heightOf s)
    (hk : k < factor s * factor s) : destAddr s x y k < s.dstBase.toNat + destExtent s := by
  have hpos : 0 < factor s := Nat.pos_of_mul_pos_left (Nat.zero_lt_of_lt hk)
  have hcol : x * factor s + k % factor s < widthOf s * factor s := mul_factor_add_lt hx (Nat.mod_lt k hpos)
  have hrow : y * factor s + k / factor s < heightOf s * factor s :=
    mul_factor_add_lt hy ((Nat.div_lt_iff_lt_mul hpos).mpr hk)
  have hcell := mul_add_lt_mul hcol hrow
  unfold destAddr destExtent
  omega

/-- The destination extent ends inside pixel memory. -/
def DestFits (s : State) : Prop := s.dstBase.toNat + destExtent s ≤ s.cfg.memWords

/-- Where MAGNIFY may run, an image that is not empty has its destination inside pixel memory. -/
theorem destFits_of_magnifyCheck {s : State} (hc : magnifyCheck s = none) (he : sourceExtent s ≠ 0) : DestFits s := by
  unfold magnifyCheck at hc
  rw [if_neg he] at hc
  split at hc
  · cases hc
  · split at hc
    · cases hc
    · next hbus => exact Nat.le_of_not_lt fun h => hbus (.inr h)

/-- The destination of an empty image is empty. -/
theorem destExtent_of_sourceExtent {s : State} (he : sourceExtent s = 0) : destExtent s = 0 := by
  obtain hw | hh := Nat.mul_eq_zero.mp he
  · simp [destExtent, hw]
  · simp [destExtent, hh]

@[simp] theorem magnifyPixel_destFits (s : State) (x y : Nat) : DestFits (magnifyPixel s x y) ↔ DestFits s := by
  simp [DestFits, destExtent]

@[simp] theorem latchThr_destFits (s : State) : DestFits (latchThr s) ↔ DestFits s := by
  simp [DestFits, destExtent, widthOf, heightOf]

/-- The writes of one source pixel stay inside pixel memory. -/
theorem pixelMemory_inBounds {s : State} {x y : Nat} (hfit : DestFits s) (hx : x < widthOf s) (hy : y < heightOf s)
    (hm : s.mem.inBounds s.cfg.memWords = true) : (pixelMemory s x y).inBounds s.cfg.memWords = true :=
  Memory.foldl_keeps (fun m => m.inBounds s.cfg.memWords = true) _ _ _ hm fun _ _ hk hm =>
    Memory.inBounds_writeWord _ _ _ _ _ hm
      (Nat.lt_of_lt_of_le (destAddr_lt hx hy (List.mem_range.mp hk)) hfit)

/-- What MAGNIFY's loops keep: the size of the image w by h, its destination inside pixel memory, and the bounds. -/
structure MagnifyBounds (w h : Nat) (s : State) : Prop where
  width : widthOf s = w
  height : heightOf s = h
  fits : DestFits s
  bounds : s.mem.inBounds s.cfg.memWords = true

theorem MagnifyBounds.pixel {w h x y : Nat} {s : State} (hb : MagnifyBounds w h s) (hx : x < w) (hy : y < h) :
    MagnifyBounds w h (magnifyPixel s x y) where
  width := by rw [magnifyPixel_widthOf, hb.width]
  height := by rw [magnifyPixel_heightOf, hb.height]
  fits := (magnifyPixel_destFits s x y).mpr hb.fits
  bounds := by
    rw [magnifyPixel_mem, magnifyPixel_cfg]
    exact pixelMemory_inBounds hb.fits (hb.width.symm ▸ hx) (hb.height.symm ▸ hy) hb.bounds

theorem MagnifyBounds.row {w h y : Nat} {s : State} (hb : MagnifyBounds w h s) (hy : y < h) :
    MagnifyBounds w h (magnifyRow s y) :=
  List.foldlRecOn _ _ hb fun _ hu _ hx => hu.pixel (hb.width ▸ List.mem_range.mp hx) hy

theorem MagnifyBounds.image {w h : Nat} {s : State} (hb : MagnifyBounds w h s) : MagnifyBounds w h (magnifyImage s) :=
  List.foldlRecOn _ _ hb fun _ hu _ hy => hu.row (hb.height ▸ List.mem_range.mp hy)

/-- MAGNIFY writes inside pixel memory only. -/
theorem magnifyImage_inBounds {s : State} (hfit : DestFits s) (hm : s.mem.inBounds s.cfg.memWords = true) :
    (magnifyImage s).mem.inBounds s.cfg.memWords = true := by
  have hb : MagnifyBounds (widthOf s) (heightOf s) s := ⟨rfl, rfl, hfit, hm⟩
  rw [← magnifyImage_cfg s]
  exact hb.image.bounds

/-- A word of the destination extent of a MAGNIFY that may run is a word of pixel memory. -/
theorem lt_memWords_of_mem_destAddrs {s : State} {a : Nat} (hc : magnifyCheck s = none) (ha : a ∈ destAddrs s) :
    a < s.cfg.memWords := by
  obtain ⟨i, hi, rfl⟩ := List.mem_map.mp ha
  have hi := List.mem_range.mp hi
  by_cases he : sourceExtent s = 0
  · rw [destExtent_of_sourceExtent he] at hi
    omega
  · have hfit : s.dstBase.toNat + destExtent s ≤ s.cfg.memWords := destFits_of_magnifyCheck hc he
    omega

/-- A MAGNIFY cut short leaves memory in canonical form. -/
theorem cutMemory_wf {s : State} (hm : s.mem.wf = true) (done : Memory) : (cutMemory s done).wf = true :=
  Memory.foldl_keeps (fun m => m.wf = true) _ _ _ hm fun m a _ hm => by
    split
    · exact Memory.wf_writeWord _ _ _ _ hm
    · exact hm

/-- A MAGNIFY cut short writes inside pixel memory only. -/
theorem cutMemory_inBounds {s : State} (hc : magnifyCheck s = none) (hm : s.mem.inBounds s.cfg.memWords = true)
    (done : Memory) : (cutMemory s done).inBounds s.cfg.memWords = true :=
  Memory.foldl_keeps (fun m => m.inBounds s.cfg.memWords = true) _ _ _ hm fun m a ha hm => by
    split
    · exact Memory.inBounds_writeWord _ _ _ _ _ hm (lt_memWords_of_mem_destAddrs hc ha)
    · exact hm

theorem magnifyCheck_of_startsMagnify {c : BitVec 41} {s : State} (h : startsMagnify c s = true) :
    magnifyCheck s = none := by
  simp only [startsMagnify, Bool.and_eq_true, beq_iff_eq] at h
  exact h.2

/-! ## The invariant under each update -/

/-- The codes of R115 are 1 to 6. -/
theorem faultNumber_bounds (c : FaultCode) : 1 ≤ (faultNumber c).toNat ∧ (faultNumber c).toNat ≤ 6 := by
  cases c <;> decide

/-- The invariant speaks of the parameters, memory, CTRL, FAULT and FAULT_CODE only. -/
theorem State.Inv.of_eq {s t : State} (h : s.Inv) (hchip : t.chip = s.chip) (hmem : t.mem = s.mem)
    (hctrl : t.ctrl = s.ctrl) (hfault : t.fault = s.fault) (hcode : t.faultCode = s.faultCode) : t.Inv := by
  unfold State.Inv State.cfg
  rw [hchip, hmem, hctrl, hfault, hcode]
  exact h

theorem State.Inv.withMem {s : State} (h : s.Inv) {m : Memory} (hwf : m.wf = true)
    (hb : m.inBounds s.cfg.memWords = true) : State.Inv { s with mem := m } := by
  obtain ⟨hcfg, -, -, hrest⟩ := h
  exact ⟨hcfg, hwf, hb, hrest⟩

theorem State.Inv.withCtrl {s : State} (h : s.Inv) {v : Word} (hv : v.toNat < 8) : State.Inv { s with ctrl := v } := by
  obtain ⟨hcfg, hwf, hb, -, hstatus⟩ := h
  exact ⟨hcfg, hwf, hb, hv, hstatus⟩

theorem State.Inv.clearFault {s : State} (h : s.Inv) : (clearFault s).Inv := by
  obtain ⟨hcfg, hwf, hb, hctrl, -⟩ := h
  exact ⟨hcfg, hwf, hb, hctrl, fun _ => rfl, fun hf => by cases hf⟩

theorem State.Inv.raiseFault {s : State} (h : s.Inv) (c : FaultCode) : (raiseFault c s).Inv := by
  cases hf : s.fault with
  | true => rwa [raiseFault_of_fault c s hf]
  | false =>
    rw [raiseFault_of_no_fault c s hf]
    obtain ⟨hcfg, hwf, hb, hctrl, -⟩ := h
    exact ⟨hcfg, hwf, hb, hctrl, fun hn => (by cases hn), fun _ => faultNumber_bounds c⟩

theorem State.Inv.writeStatus {s : State} (h : s.Inv) (v : Word) : (writeStatus v s).Inv := by
  unfold Machine.writeStatus
  split
  · exact h.clearFault
  · exact h

theorem State.Inv.respond {s : State} (h : s.Inv) (v : Word) : (respond v s).Inv := h

theorem and_ctrlMask_lt (v : Word) : (v &&& ctrlMask).toNat < 8 := by
  rw [BitVec.toNat_and]
  exact Nat.lt_succ_of_le Nat.and_le_right

theorem State.Inv.storeReg {s : State} (h : s.Inv) (r : Reg) (v : Word) : (storeReg r v s).Inv := by
  cases r with
  | ctrl => exact h.withCtrl (and_ctrlMask_lt v)
  | _ => exact h

/-- MAGNIFY's loops keep the invariant where its checks pass. -/
theorem State.Inv.magnifyImage {s : State} (h : s.Inv) (hfit : DestFits s) : (magnifyImage s).Inv := by
  obtain ⟨-, hwf, hb, -⟩ := id h
  rw [magnifyImage_eq]
  exact (h.withMem (magnifyImage_wf s hwf) (magnifyImage_inBounds hfit hb)).of_eq rfl rfl rfl rfl rfl

theorem State.Inv.resetInput {s : State} (h : s.Inv) : (resetInput s).Inv := by
  obtain ⟨hcfg, hwf, hb, -⟩ := h
  exact ⟨hcfg, hwf, hb, Nat.zero_lt_succ 7, fun _ => rfl, fun hf => by cases hf⟩

/-- What a cut transaction leaves has the invariant, whatever legal memory it leaves. -/
theorem State.Inv.afterCut {s : State} (h : s.Inv) (c : BitVec 41) {m : Memory} (hwf : m.wf = true)
    (hb : m.inBounds s.cfg.memWords = true) : (afterCut c s m).Inv :=
  (h.resetInput.withMem hwf hb).of_eq rfl rfl rfl rfl rfl

/-! ## The invariant under commands, instructions and steps -/

theorem CommandEffect.inv {i : Instr} {s t : State} (h : CommandEffect i s t) (hs : s.Inv) : t.Inv := by
  cases h with
  | unchanged => exact hs
  | raised _ c => exact hs.raiseFault c
  | lutFilled | lutReleased | computed => exact hs
  | magnified _ _ hc he =>
    have hlatched : (latchThr s).Inv := hs
    exact hlatched.magnifyImage ((latchThr_destFits s).mpr (destFits_of_magnifyCheck hc he))

theorem ExecEffect.inv {i : Instr} {s t : State} (h : ExecEffect i s t) (hs : s.Inv) : t.Inv := by
  cases h with
  | command _ h => exact h.inv hs
  | cmdWrite _ h => exact h.inv hs
  | cmdIgnored => exact hs
  | raised _ c => exact hs.raiseFault c
  | stored v => exact hs.storeReg _ v
  | statusWritten v => exact hs.writeStatus v
  | answered => exact hs.respond _
  | readRefused => exact (hs.raiseFault .badReg).respond 0
  | resolved => exact hs

theorem StepEffect.inv {s t : State} (h : StepEffect s t) (hs : s.Inv) : t.Inv := by
  have htaken : ∀ rest, State.Inv { s with inputs := rest } := fun _ => hs
  cases h with
  | idle => exact hs
  | bus _ h => exact (execEffect_of_exec h).inv (htaken _)
  | resolver _ h => exact (execEffect_of_exec h).inv (htaken _)
  | reset => exact (htaken _).resetInput
  | cut =>
    obtain ⟨-, hwf, hb, -⟩ := id hs
    split
    · next hstart =>
      exact (htaken _).afterCut _ (cutMemory_wf hwf _) (cutMemory_inBounds (magnifyCheck_of_startsMagnify hstart) hb _)
    · exact (htaken _).afterCut _ hwf hb
  | store _ ha =>
    obtain ⟨-, hwf, hb, -⟩ := id hs
    exact (htaken _).withMem (Memory.wf_writeWord _ _ _ _ hwf) (Memory.inBounds_writeWord _ _ _ _ _ hb ha)

/-- Settles O13, by a case split over what a step can do. -/
theorem stepKeepsTheStateInvariant : Obligations.StepKeepsTheStateInvariant := by
  intro s t hs h
  exact (stepEffect_of_step h).inv hs

end Sys2Proof.Machine

/-!
PROOFS. What changes which state: the parameters (R35), LUT_VALID (R23, R30), RESULT and OUT (R29, R33) and the host's
registers (R28, R32, R34), each read off what a command, an instruction or a step can do.
-/

namespace Sys2Proof.Machine

/-! ## Plain stores -/

@[simp] theorem storeReg_chip (r : Reg) (v : Word) (s : State) : (storeReg r v s).chip = s.chip := by cases r <;> rfl
@[simp] theorem storeReg_result (r : Reg) (v : Word) (s : State) : (storeReg r v s).result = s.result := by
  cases r <;> rfl
@[simp] theorem storeReg_out (r : Reg) (v : Word) (s : State) : (storeReg r v s).out = s.out := by cases r <;> rfl
@[simp] theorem storeReg_lutValid (r : Reg) (v : Word) (s : State) : (storeReg r v s).lutValid = s.lutValid := by
  cases r <;> rfl

/-! ## The parameters (R35) -/

theorem CommandEffect.chip {i : Instr} {s t : State} (h : CommandEffect i s t) : t.chip = s.chip := by
  cases h with
  | unchanged | lutFilled | lutReleased | computed => rfl
  | raised _ c => exact raiseFault_chip c s
  | magnified => rw [magnifyImage_chip, latchThr_chip]

theorem ExecEffect.chip {i : Instr} {s t : State} (h : ExecEffect i s t) : t.chip = s.chip := by
  cases h with
  | command _ h => exact h.chip
  | cmdWrite _ h => exact h.chip
  | cmdIgnored | answered | resolved => rfl
  | raised _ c => exact raiseFault_chip c s
  | stored v => exact storeReg_chip _ v s
  | statusWritten v => exact writeStatus_chip v s
  | readRefused => rw [respond_chip, raiseFault_chip]

theorem StepEffect.chip {s t : State} (h : StepEffect s t) : t.chip = s.chip := by
  cases h with
  | idle | reset | cut | store => rfl
  | bus _ h => exact (execEffect_of_exec h).chip
  | resolver _ h => exact (execEffect_of_exec h).chip

/-- Settles O15: a step keeps the chip, and the parameters with it. -/
theorem stepKeepsTablesAndParameters : Obligations.StepKeepsTablesAndParameters := by
  intro s t h
  exact congrArg Chip.params (stepEffect_of_step h).chip

/-! ## LUT_VALID (R23, R30) -/

theorem CommandEffect.lutValid {i : Instr} {s t : State} (h : CommandEffect i s t) :
    t.lutValid = s.lutValid ∨ (t.lutValid = true ∧ i = .lutInit) ∨ (t.lutValid = false ∧ i = .lutDeinit) := by
  cases h with
  | unchanged | computed => exact .inl rfl
  | raised _ c => exact .inl (raiseFault_lutValid c s)
  | lutFilled => exact .inr (.inl ⟨rfl, rfl⟩)
  | lutReleased => exact .inr (.inr ⟨rfl, rfl⟩)
  | magnified => exact .inl (by rw [magnifyImage_lutValid, latchThr_lutValid])

/-- LUT_INIT has one command word. -/
theorem eq_of_decodeCmd_lutInit {v : Word} (h : decodeCmd v = .ok .lutInit) : v = 0x00000001 := by
  have he := encode_of_decodeCmd h
  injection he with he
  exact he.symm

/-- LUT_DEINIT has one command word. -/
theorem eq_of_decodeCmd_lutDeinit {v : Word} (h : decodeCmd v = .ok .lutDeinit) : v = 0x00000002 := by
  have he := encode_of_decodeCmd h
  injection he with he
  exact he.symm

theorem ExecEffect.lutValid {i : Instr} {s t : State} (h : ExecEffect i s t) :
    t.lutValid = s.lutValid ∨ (t.lutValid = true ∧ (i = .lutInit ∨ i = .wr 0x01 0x00000001)) ∨
      (t.lutValid = false ∧ (i = .lutDeinit ∨ i = .wr 0x01 0x00000002)) := by
  cases h with
  | command _ h =>
    obtain hkept | ⟨hset, hi⟩ | ⟨hclear, hi⟩ := h.lutValid
    · exact .inl hkept
    · exact .inr (.inl ⟨hset, .inl hi⟩)
    · exact .inr (.inr ⟨hclear, .inl hi⟩)
  | cmdWrite hd h =>
    obtain hkept | ⟨hset, rfl⟩ | ⟨hclear, rfl⟩ := h.lutValid
    · exact .inl hkept
    · exact .inr (.inl ⟨hset, .inr (by rw [eq_of_decodeCmd_lutInit hd])⟩)
    · exact .inr (.inr ⟨hclear, .inr (by rw [eq_of_decodeCmd_lutDeinit hd])⟩)
  | cmdIgnored | answered | resolved => exact .inl rfl
  | raised _ c => exact .inl (raiseFault_lutValid c s)
  | stored v => exact .inl (storeReg_lutValid _ v s)
  | statusWritten v => exact .inl (writeStatus_lutValid v s)
  | readRefused => exact .inl (by rw [respond_lutValid, raiseFault_lutValid])

/-- A bus transaction that changes LUT_VALID is the CMD write of LUT_INIT or LUT_DEINIT. -/
theorem exec_decodeBus_lutValid {c : BitVec 41} {s t : State} (h : exec (decodeBus c) s = .next t) :
    t.lutValid = s.lutValid ∨ (t.lutValid = true ∧ c = busWrite 0x01 0x00000001) ∨
      (t.lutValid = false ∧ c = busWrite 0x01 0x00000002) := by
  have hrow := isCommand_decodeBus c
  obtain hkept | ⟨hset, hi | hi⟩ | ⟨hclear, hi | hi⟩ := (execEffect_of_exec h).lutValid
  · exact .inl hkept
  · rw [hi] at hrow; cases hrow
  · exact .inr (.inl ⟨hset, eq_busWrite_of_decodeBus hi⟩)
  · rw [hi] at hrow; cases hrow
  · exact .inr (.inr ⟨hclear, eq_busWrite_of_decodeBus hi⟩)

/-- A row of the resolver keeps LUT_VALID. -/
theorem exec_resolverRow_lutValid {i : Instr} {s t : State} (hi : i.isResolverRow = true) (h : exec i s = .next t) :
    t.lutValid = s.lutValid := by
  obtain hkept | ⟨-, rfl | rfl⟩ | ⟨-, rfl | rfl⟩ := (execEffect_of_exec h).lutValid
  · exact hkept
  all_goals cases hi

theorem StepEffect.lutValid {s t : State} (h : StepEffect s t) :
    t.lutValid = s.lutValid ∨
      (t.lutValid = true ∧ ∃ rest, s.inputs = .bus (busWrite 0x01 0x00000001) :: rest) ∨
      (t.lutValid = false ∧ ∃ rest, s.inputs = .bus (busWrite 0x01 0x00000002) :: rest ∨ s.inputs = .reset :: rest ∨
        ∃ c, s.inputs = .cut c :: rest) := by
  cases h with
  | idle | store => exact .inl rfl
  | bus hin h =>
    obtain hkept | ⟨hset, rfl⟩ | ⟨hclear, rfl⟩ := exec_decodeBus_lutValid h
    · exact .inl hkept
    · exact .inr (.inl ⟨hset, _, hin⟩)
    · exact .inr (.inr ⟨hclear, _, .inl hin⟩)
  | resolver hi h =>
    have hkept := exec_resolverRow_lutValid hi h
    exact .inl hkept
  | reset hin => exact .inr (.inr ⟨rfl, _, .inr (.inl hin)⟩)
  | cut hin => exact .inr (.inr ⟨rfl, _, .inr (.inr ⟨_, hin⟩)⟩)

/-- Settles O26, for the instructions and for the steps. -/
theorem onlyLutCommandsChangeLutValid : Obligations.OnlyLutCommandsChangeLutValid :=
  ⟨fun _ _ _ h => (execEffect_of_exec h).lutValid, fun _ _ h => (stepEffect_of_step h).lutValid⟩

/-! ## RESULT and OUT (R29, R33) -/

theorem CommandEffect.result {i : Instr} {s t : State} (h : CommandEffect i s t) :
    t.result = s.result ∨ writesResult i = true := by
  cases h with
  | unchanged | lutFilled | lutReleased => exact .inl rfl
  | raised _ c => exact .inl (raiseFault_result c s)
  | computed _ _ _ _ hr => exact hr
  | magnified => exact .inl (by rw [magnifyImage_result, latchThr_result])

theorem CommandEffect.out {i : Instr} {s t : State} (h : CommandEffect i s t) :
    t.out = s.out ∨ writesOut i = true := by
  cases h with
  | unchanged | lutFilled | lutReleased => exact .inl rfl
  | raised _ c => exact .inl (raiseFault_out c s)
  | computed _ _ _ _ _ ho => exact ho
  | magnified => exact .inl (by rw [magnifyImage_out, latchThr_out])

theorem ExecEffect.result {i : Instr} {s t : State} (h : ExecEffect i s t) :
    t.result = s.result ∨ isCommandOf writesResult i := by
  cases h with
  | command _ h => exact h.result.imp_right .inl
  | cmdWrite hd h => exact h.result.imp_right fun hj => .inr ⟨_, _, rfl, hd, hj⟩
  | cmdIgnored | answered | resolved => exact .inl rfl
  | raised _ c => exact .inl (raiseFault_result c s)
  | stored v => exact .inl (storeReg_result _ v s)
  | statusWritten v => exact .inl (writeStatus_result v s)
  | readRefused => exact .inl (by rw [respond_result, raiseFault_result])

theorem ExecEffect.out {i : Instr} {s t : State} (h : ExecEffect i s t) :
    t.out = s.out ∨ isCommandOf writesOut i := by
  cases h with
  | command _ h => exact h.out.imp_right .inl
  | cmdWrite hd h => exact h.out.imp_right fun hj => .inr ⟨_, _, rfl, hd, hj⟩
  | cmdIgnored | answered | resolved => exact .inl rfl
  | raised _ c => exact .inl (raiseFault_out c s)
  | stored v => exact .inl (storeReg_out _ v s)
  | statusWritten v => exact .inl (writeStatus_out v s)
  | readRefused => exact .inl (by rw [respond_out, raiseFault_out])

/-- Settles O28. -/
theorem onlyTheirCommandsChangeResultAndOut : Obligations.OnlyTheirCommandsChangeResultAndOut :=
  fun _ _ _ h => ⟨(execEffect_of_exec h).result, (execEffect_of_exec h).out⟩

/-! ## The host's registers (R28, R32, R34) -/

/-- Settles O29: none of the things a command can do reaches a register of the host's. -/
theorem commandsKeepTheHostRegisters : Obligations.CommandsKeepTheHostRegisters := by
  intro v i s t hd h
  cases commandEffect_of_exec (isCommand_of_decodeCmd hd) h with
  | unchanged | lutFilled | lutReleased | computed | raised | magnified => simp

end Sys2Proof.Machine

/-!
PROOFS. The statements on register access (R21, R23 to R25, R37, R38, R111, R112, R116), each an application of what a host
write or read does by the class of its register.
-/

namespace Sys2Proof.Machine

/-- Settles O16. -/
theorem statusWriteClearsTheFaultOnly : Obligations.StatusWriteClearsTheFaultOnly := by
  intro v s
  refine ⟨fun hset => ?_, fun hclear => ?_, ?_⟩
  · rw [exec_wr_status, writeStatus_of_set hset, clearFault]
  · rw [exec_wr_status, writeStatus_of_clear hclear]
  · rw [exec_clrfault, writeStatus_of_set (by decide), clearFault]

/-- Settles O17. -/
theorem plainWriteStoresItsRegister : Obligations.PlainWriteStoresItsRegister := by
  intro v s
  have hctrl : exec (.wr 0x03 v) s = .next { s with ctrl := (v.extractLsb' 0 3).setWidth 32 } := by
    rw [exec_wr_rw (r := .ctrl) rfl rfl, storeReg, and_ctrlMask]
  have hnb : ∀ i : Fin 9,
      exec (.wr (BitVec.ofNat 8 (0x20 + i.val)) v) s = .next { s with nb := s.nb.set i.val v } :=
    fun i => exec_wr_rw (regOf_nb i) rfl v s
  exact ⟨hctrl, rfl, rfl, rfl, rfl, rfl, rfl, rfl, rfl, rfl, rfl, rfl, rfl, rfl, hnb⟩

/-- The read-only and the reserved indices have no plain store (R37, R38). -/
theorem regOf_not_writable {i : BitVec 8}
    (h : i = 0x00 ∨ i = 0x0B ∨ (0x12 ≤ i.toNat ∧ i.toNat ≤ 0x1F) ∨ 0x29 ≤ i.toNat) :
    regOf i = none ∨ ∃ r, regOf i = some r ∧ isRw r = false ∧ r ≠ .cmd ∧ r ≠ .status := by
  obtain rfl | rfl | hlow | hhigh := h
  · exact .inr ⟨.caps, rfl, rfl, by decide, by decide⟩
  · exact .inr ⟨.result, rfl, rfl, by decide, by decide⟩
  · exact .inl (regOf_reserved (.inl hlow))
  · by_cases hout : 0x30 ≤ i.toNat ∧ i.toNat ≤ 0x3F
    · obtain ⟨k, hk⟩ := regOf_outRange hout
      exact .inr ⟨.out k, hk, rfl, by simp, by simp⟩
    · exact .inl (regOf_reserved (by omega))

/-- Settles O18. -/
theorem writeToReadOnlyOrReservedRaisesBadReg : Obligations.WriteToReadOnlyOrReservedRaisesBadReg := by
  intro i v s h
  rw [exec_wr_badReg (regOf_not_writable h)]
  constructor
  · intro hf
    rw [raiseFault_of_no_fault _ s hf, faultNumber]
  · intro hf
    rw [raiseFault_of_fault _ s hf]

/-- Settles O19. -/
theorem readReturnsItsRegister : Obligations.ReadReturnsItsRegister := by
  rintro s caps status rfl rfl
  have hcaps := exec_rd_reg (regOf_regIndex .caps) (by decide) s
  have hstatus := exec_rd_reg (regOf_regIndex .status) (by decide) s
  rw [readReg, capsWord_eq_ofNat] at hcaps
  rw [readReg, statusWord_eq_ofNat] at hstatus
  exact ⟨hcaps, hstatus, rfl, rfl, rfl, rfl, rfl, rfl, rfl, rfl, rfl, rfl, rfl, rfl, rfl, rfl, rfl,
    fun i => exec_rd_reg (regOf_nb i) (by simp) s, fun k => exec_rd_reg (regOf_out k) (by simp) s⟩

/-- Settles O20. -/
theorem readOfCmdOrReservedRaisesBadReg : Obligations.ReadOfCmdOrReservedRaisesBadReg := by
  intro i s h
  have hreg : regOf i = none ∨ regOf i = some .cmd := by
    obtain rfl | hreserved := h
    · exact .inr rfl
    · exact .inl (regOf_reserved hreserved)
  rw [exec_rd_badReg hreg]
  constructor
  · intro hf
    rw [raiseFault_of_no_fault _ s hf, faultNumber, respond]
  · intro hf
    rw [raiseFault_of_fault _ s hf, respond]

end Sys2Proof.Machine

/-!
PROOFS. Pixel memory (R40, R42, R108): what the host's store does to it, and what the instructions leave of it, read off what
a command or an instruction can do.
-/

namespace Sys2Proof.Machine

/-! ## The host's store (R42; log 19) -/

/-- The oldest input acts. -/
theorem step_of_inputs {s : State} {i : Input} {rest : List Input} (h : s.inputs = i :: rest) :
    step s = runInput i { s with inputs := rest } := by
  rw [step, takeInput, h]

/-- A store to a word that exists takes the input and writes the word. -/
theorem step_store_of_lt {s : State} {a v : BitVec 32} {rest : List Input} (hin : s.inputs = .store a v :: rest)
    (ha : a.toNat < s.cfg.memWords) :
    step s = .next { s with inputs := rest, mem := s.mem.writeWord s.cfg.byteOrder a.toNat v } := by
  rw [step_of_inputs hin, runInput, runStore, if_pos ha]

/-- A store past the end of memory stops the model. -/
theorem step_store_of_le {s : State} {a v : BitVec 32} {rest : List Input} (hin : s.inputs = .store a v :: rest)
    (ha : s.cfg.memWords ≤ a.toNat) : step s = .fault (.noSuchWord a) := by
  rw [step_of_inputs hin, runInput, runStore, if_neg (Nat.not_lt.mpr ha)]

/-- Settles O12, by the laws of the write of a word. -/
theorem hostStoreWritesItsWordOnly : Obligations.HostStoreWritesItsWordOnly := by
  intro s a v rest hin hwf
  have hsame := Memory.readWord_writeWord_same s.cfg.byteOrder s.mem a.toNat v hwf
  have hother := fun b hb => Memory.readByte_writeWord_outside s.cfg.byteOrder s.mem a.toNat b v hwf hb
  exact ⟨fun ha => ⟨_, step_store_of_lt hin ha, rfl, hsame, hother⟩, step_store_of_le hin⟩

/-! ## What the instructions leave of memory (R40, R108) -/

@[simp] theorem storeReg_mem (r : Reg) (v : Word) (s : State) : (storeReg r v s).mem = s.mem := by cases r <;> rfl

/-- MAGNIFY has one command word. -/
theorem eq_of_decodeCmd_magnify {v : Word} (h : decodeCmd v = .ok .magnify) : v = 0x00000008 := by
  have he := encode_of_decodeCmd h
  injection he with he
  exact he.symm

theorem CommandEffect.mem {i : Instr} {s t : State} (h : CommandEffect i s t) : t.mem = s.mem ∨ i = .magnify := by
  cases h with
  | unchanged | lutFilled | lutReleased | computed => exact .inl rfl
  | raised _ c => exact .inl (raiseFault_mem c s)
  | magnified => exact .inr rfl

theorem ExecEffect.mem {i : Instr} {s t : State} (h : ExecEffect i s t) :
    t.mem = s.mem ∨ i = .magnify ∨ i = .wr 0x01 0x00000008 := by
  cases h with
  | command _ h => exact h.mem.imp_right .inl
  | cmdWrite hd h =>
    obtain hkept | rfl := h.mem
    · exact .inl hkept
    · exact .inr (.inr (by rw [eq_of_decodeCmd_magnify hd]))
  | cmdIgnored | answered | resolved => exact .inl rfl
  | raised _ c => exact .inl (raiseFault_mem c s)
  | stored v => exact .inl (storeReg_mem _ v s)
  | statusWritten v => exact .inl (writeStatus_mem v s)
  | readRefused => exact .inl (by rw [respond_mem, raiseFault_mem])

/-- Settles O27. -/
theorem onlyMagnifyChangesMemory : Obligations.OnlyMagnifyChangesMemory :=
  fun _ _ _ h => (execEffect_of_exec h).mem

end Sys2Proof.Machine

/-!
PROOFS. The encoder and the decoder are inverse to each other (R53 to R61): for each format, when a code word is accepted
and what it is read as; which instructions a format encodes and when they are well formed; and the two round trips.
-/

namespace Sys2Proof

/-! ## Command words (R53 to R55) -/

/-- A word that passes the three checks of R55 is read by the opcode map. -/
theorem decodeCmd_ok {v : BitVec 32} {i : Instr} (hhigh : cmdHigh v = 0)
    (hop : opcodeMap (cmdPat v) (cmdOp v).toNat = some i) (hpat : cmdOp v = 6 ∨ cmdPat v = 0) : decodeCmd v = .ok i := by
  have hlegal : ¬ (cmdOp v ≠ 6 ∧ cmdPat v ≠ 0) := fun h => hpat.elim h.1 h.2
  rw [decodeCmd, if_neg (not_not.mpr hhigh), hop]
  exact if_neg hlegal

/-- A word that fails one of the three checks of R55 is rejected. -/
theorem decodeCmd_error {v : BitVec 32}
    (h : cmdHigh v ≠ 0 ∨ opcodeMap (cmdPat v) (cmdOp v).toNat = none ∨ (cmdOp v ≠ 6 ∧ cmdPat v ≠ 0)) :
    decodeCmd v = .error (.illegalCmd v) := by
  unfold decodeCmd
  split
  · rfl
  · next hhigh =>
    split
    · rfl
    · next hop =>
      obtain h | h | h := h
      · exact absurd h hhigh
      · rw [h] at hop; cases hop
      · exact if_pos h

theorem decodeCmd_cmdWord {op pat : BitVec 8} {i : Instr} (hop : opcodeMap pat op.toNat = some i)
    (hpat : op = 6 ∨ pat = 0) : decodeCmd (cmdWord op pat) = .ok i :=
  decodeCmd_ok (cmdHigh_cmdWord op pat) (by rw [cmdPat_cmdWord, cmdOp_cmdWord, hop])
    (by rw [cmdPat_cmdWord, cmdOp_cmdWord]; exact hpat)

/-- A command row's word decodes to the row. -/
theorem decodeCmd_of_encode {i : Instr} {v : BitVec 32} (h : encode i = .cmd v) : decodeCmd v = .ok i := by
  cases i with
  | nop | lutInit | lutDeinit | lookup | differs | classify | pixel | magnify | mix31 | mix211 | mix71 | mix277 | mix53
  | mix421 | mix611 | mix233 | mix1411 | mix11 =>
    cases h
    exact decodeCmd_cmdWord rfl (.inr rfl)
  | dispatch pat =>
    cases h
    exact decodeCmd_cmdWord rfl (.inl rfl)
  | _ => cases h

/-- Every operand of a command row is one its encoding admits. -/
theorem wf_of_encode_cmd {i : Instr} {v : BitVec 32} (h : encode i = .cmd v) : i.wf = true := by
  cases i with
  | recipeCopy | recipeMix31 | recipeMix211 | recipeMix71 | recipeMix277 | recipeMix53 | recipeMix421 | recipeMix611
  | recipeMix233 | recipeMix1411 | recipeMix11 | entryPlain | entryCond | rd | wr | clrfault => cases h
  | _ => rfl

/-! ## Recipe words (R56) -/

/-- R56 (c), (d) for the 2-input kinds. -/
theorem recipeWf_of_kind_two {r : BitVec 16} (h2 : kindTakesTwo (recipeKind r) = true) :
    recipeWf r = (indexOk (recipeI1 r) && indexOk (recipeI2 r) && recipeI3 r == 0) := by
  have hkind : ∀ k : BitVec 4, kindTakesTwo k = true → k ≠ 0 ∧ k.toNat ≤ 10 := by decide
  obtain ⟨h0, h10⟩ := hkind _ h2
  simp only [recipeWf, beq_iff_eq, if_neg h0, if_pos h2, h10, decide_true, Bool.true_and]

/-- The word of a 2-input recipe, I3 = 0, is well formed where its two indices are. -/
theorem recipeWf_recipeWord_two {k : BitVec 4} (h2 : kindTakesTwo k = true) (i1 i2 : BitVec 4) :
    recipeWf (recipeWord k i1 i2 0) = (indexOk i1 && indexOk i2) := by
  rw [recipeWf_of_kind_two (by rw [recipeKind_recipeWord, h2])]
  simp

/-- The word of a 3-input recipe is well formed where its three indices are (R56 (e)). -/
theorem recipeWf_recipeWord_three {k : BitVec 4} (h2 : kindTakesTwo k = false) (h0 : k ≠ 0) (h10 : k.toNat ≤ 10)
    (i1 i2 i3 : BitVec 4) : recipeWf (recipeWord k i1 i2 i3) = (indexOk i1 && indexOk i2 && indexOk i3) := by
  simp only [recipeWf, recipeKind_recipeWord, recipeI1_recipeWord, recipeI2_recipeWord, recipeI3_recipeWord, beq_iff_eq,
    if_neg h0, h2, h10, decide_true, Bool.true_and, Bool.false_eq_true, if_false]

/-- A recipe row is well formed where its word is. -/
theorem wf_of_encode_recipe {i : Instr} {r : BitVec 16} (h : encode i = .recipe r) : i.wf = recipeWf r := by
  cases i with
  | recipeCopy => cases h; rfl
  | recipeMix31 | recipeMix71 | recipeMix53 | recipeMix11 =>
    cases h
    exact (recipeWf_recipeWord_two rfl _ _).symm
  | recipeMix211 | recipeMix277 | recipeMix421 | recipeMix611 | recipeMix233 | recipeMix1411 =>
    cases h
    exact (recipeWf_recipeWord_three rfl (by decide) (by decide) _ _ _).symm
  | _ => cases h

/-- A recipe row's word is read as the row. -/
theorem recipeInstr_of_encode {i : Instr} {r : BitVec 16} (h : encode i = .recipe r) : recipeInstr r = some i := by
  cases i with
  | recipeCopy | recipeMix31 | recipeMix71 | recipeMix53 | recipeMix11 | recipeMix211 | recipeMix277 | recipeMix421
  | recipeMix611 | recipeMix233 | recipeMix1411 =>
    cases h
    simp [recipeInstr]
  | _ => cases h

/-- A word whose KIND is known is that KIND and its three indices. -/
theorem recipeWord_of_kind {r : BitVec 16} {k : BitVec 4} (hk : (recipeKind r).toNat = k.toNat) :
    recipeWord k (recipeI1 r) (recipeI2 r) (recipeI3 r) = r := by
  rw [← BitVec.eq_of_toNat_eq hk, recipeWord_fields]

/-- A well-formed word of a 2-input KIND is that KIND and two indices (R56 (d)). -/
theorem recipeWord_of_kind_two {r : BitVec 16} {k : BitVec 4} (h : recipeWf r = true)
    (hk : (recipeKind r).toNat = k.toNat) (h2 : kindTakesTwo k = true) : recipeWord k (recipeI1 r) (recipeI2 r) 0 = r := by
  have hkind : recipeKind r = k := BitVec.eq_of_toNat_eq hk
  rw [recipeWf_of_kind_two (hkind ▸ h2), Bool.and_eq_true, beq_iff_eq] at h
  obtain ⟨-, h3⟩ := h
  rw [← h3, recipeWord_of_kind hk]

/-- The only well-formed word of KIND 0 (R56 (b)). -/
theorem recipeWord_of_kind_zero {r : BitVec 16} (h : recipeWf r = true) (hk : (recipeKind r).toNat = 0) :
    recipeWord 0 0 0 0 = r := by
  have hkind : recipeKind r = 0 := BitVec.eq_of_toNat_eq hk
  simp only [recipeWf, hkind, beq_self_eq_true, if_true, Bool.and_eq_true, beq_iff_eq] at h
  obtain ⟨⟨h1, h2⟩, h3⟩ := h
  calc recipeWord 0 0 0 0 = recipeWord 0 (recipeI1 r) (recipeI2 r) (recipeI3 r) := by rw [h1, h2, h3]
    _ = r := recipeWord_of_kind hk

/-- The row a well-formed recipe word is read as encodes back to the word. -/
theorem encode_of_recipeInstr {r : BitVec 16} {i : Instr} (h : recipeWf r = true) (hi : recipeInstr r = some i) :
    encode i = .recipe r := by
  unfold recipeInstr at hi
  split at hi
  case h_1 hk =>
    obtain rfl := Option.some.inj hi
    exact congrArg CodeWord.recipe (recipeWord_of_kind_zero h hk)
  case h_2 hk | h_4 hk | h_6 hk | h_11 hk =>
    obtain rfl := Option.some.inj hi
    exact congrArg CodeWord.recipe (recipeWord_of_kind_two h hk rfl)
  case h_3 hk | h_5 hk | h_7 hk | h_8 hk | h_9 hk | h_10 hk =>
    obtain rfl := Option.some.inj hi
    exact congrArg CodeWord.recipe (recipeWord_of_kind hk)
  case h_12 => cases hi

/-- What a recipe word decodes to is read from a well-formed word. -/
theorem decodeRecipe_eq_ok_iff {r : BitVec 16} {i : Instr} :
    decodeRecipe r = .ok i ↔ recipeWf r = true ∧ recipeInstr r = some i := by
  unfold decodeRecipe
  by_cases hwf : recipeWf r = true
  · rw [if_pos hwf]
    cases recipeInstr r <;> simp [hwf]
  · simp [hwf]

/-- A well-formed recipe row's word decodes to the row. -/
theorem decodeRecipe_of_encode {i : Instr} {r : BitVec 16} (h : encode i = .recipe r) (hwf : i.wf = true) :
    decodeRecipe r = .ok i :=
  decodeRecipe_eq_ok_iff.mpr ⟨wf_of_encode_recipe h ▸ hwf, recipeInstr_of_encode h⟩

/-- What a recipe word decodes to is well formed and encodes back to the word. -/
theorem wf_encode_of_decodeRecipe {r : BitVec 16} {i : Instr} (h : decodeRecipe r = .ok i) :
    i.wf = true ∧ encode i = .recipe r := by
  obtain ⟨hwf, hi⟩ := decodeRecipe_eq_ok_iff.mp h
  have he := encode_of_recipeInstr hwf hi
  exact ⟨(wf_of_encode_recipe he).trans hwf, he⟩

/-! ## Table entries (R57) -/

@[simp] theorem entryWf_plainEntry (r : BitVec 16) : entryWf (plainEntry r) = recipeWf r := by simp [entryWf]

@[simp] theorem entryWf_condEntry (ta tb : BitVec 4) (rd rs : BitVec 16) :
    entryWf (condEntry ta tb rd rs) = (recipeWf rd && recipeWf rs && indexOk ta && indexOk tb) := by
  simp [entryWf, Bool.and_assoc]

/-- An entry is its six fields. -/
theorem entry_fields (e : BitVec 64) :
    entryHigh e ++ BitVec.ofBool (entryIsCond e) ++ entryTb e ++ entryTa e ++ entryRs e ++ entryRd e = e := by
  apply BitVec.eq_of_getLsbD_eq
  intro i hi
  simp only [entryHigh, entryIsCond, entryTb, entryTa, entryRs, entryRd, BitVec.getLsbD_append,
    BitVec.getLsbD_extractLsb', BitVec.getLsbD_ofBool]
  interval_cases i <;> simp

/-- A well-formed entry with COND = 1 is the conditional entry of its fields. -/
theorem condEntry_fields {e : BitVec 64} (h : entryWf e = true) (hc : entryIsCond e = true) :
    condEntry (entryTa e) (entryTb e) (entryRd e) (entryRs e) = e := by
  simp only [entryWf, Bool.and_eq_true, beq_iff_eq] at h
  obtain ⟨⟨hhigh, -⟩, -⟩ := h
  have hfields := entry_fields e
  rw [hhigh, hc] at hfields
  exact hfields

/-- A well-formed entry with COND = 0 is the plain entry of its RD. -/
theorem plainEntry_fields {e : BitVec 64} (h : entryWf e = true) (hc : entryIsCond e = false) :
    plainEntry (entryRd e) = e := by
  simp only [entryWf, hc, Bool.and_eq_true, beq_iff_eq, Bool.false_eq_true, if_false] at h
  obtain ⟨⟨hhigh, -⟩, ⟨hrs, hta⟩, htb⟩ := h
  have hfields := entry_fields e
  rw [hhigh, hc, htb, hta, hrs] at hfields
  exact hfields

/-- An entry row is well formed where its entry is. -/
theorem wf_of_encode_entry {i : Instr} {e : BitVec 64} (h : encode i = .entry e) : i.wf = entryWf e := by
  cases i with
  | entryPlain r => cases h; exact (entryWf_plainEntry r).symm
  | entryCond rd rs ta tb => cases h; exact (entryWf_condEntry ta tb rd rs).symm
  | _ => cases h

/-- A well-formed entry row's entry decodes to the row. -/
theorem decodeEntry_of_encode {i : Instr} {e : BitVec 64} (h : encode i = .entry e) (hwf : i.wf = true) :
    decodeEntry e = .ok i := by
  rw [wf_of_encode_entry h] at hwf
  rw [decodeEntry, if_pos hwf]
  cases i with
  | entryPlain r => cases h; simp
  | entryCond rd rs ta tb => cases h; simp
  | _ => cases h

/-- What an entry decodes to is well formed and encodes back to the entry. -/
theorem wf_encode_of_decodeEntry {e : BitVec 64} {i : Instr} (h : decodeEntry e = .ok i) :
    i.wf = true ∧ encode i = .entry e := by
  unfold decodeEntry at h
  split at h
  · next hwf =>
    have he : encode i = .entry e := by
      split at h
      · next hc =>
        injection h with h
        exact h ▸ congrArg CodeWord.entry (condEntry_fields hwf hc)
      · next hc =>
        injection h with h
        exact h ▸ congrArg CodeWord.entry (plainEntry_fields hwf (Bool.eq_false_iff.mpr hc))
    exact ⟨(wf_of_encode_entry he).trans hwf, he⟩
  · cases h

/-! ## Bus transactions (R59 to R61) -/

/-- The one bus row that is not well formed is the write of 2 to STATUS, spelled wr (R60; log 18). -/
theorem wf_wr_iff (x : BitVec 8) (v : Word) : (Instr.wr x v).wf = true ↔ ¬ (x = 2 ∧ v = 2) := by
  simp [Instr.wf, imp_iff_not_or]

/-- A well-formed bus row's transaction decodes to the row. -/
theorem decodeBus_of_encode {i : Instr} {t : BitVec 41} (h : encode i = .bus t) (hwf : i.wf = true) : decodeBus t = i := by
  cases i with
  | rd x => cases h; simp [decodeBus]
  | wr x v =>
    cases h
    rw [decodeBus, busIsWrite_busWrite, if_pos rfl, busIndex_busWrite, busData_busWrite,
      if_neg ((wf_wr_iff x v).mp hwf)]
  | clrfault => cases h; simp [decodeBus]
  | _ => cases h

/-- What a bus transaction decodes to is well formed. -/
theorem wf_decodeBus (t : BitVec 41) : (decodeBus t).wf = true := by
  unfold decodeBus
  split
  · split
    · rfl
    · next hne => exact (wf_wr_iff _ _).mpr hne
  · rfl

/-- What a bus write decodes to encodes back to the transaction. -/
theorem encode_decodeBus_of_write {t : BitVec 41} (h : busIsWrite t = true) : encode (decodeBus t) = .bus t := by
  have hfields := busWrite_fields h
  rw [decodeBus, if_pos h]
  split
  · next h2 =>
    rw [h2.1, h2.2] at hfields
    exact congrArg CodeWord.bus hfields
  · exact congrArg CodeWord.bus hfields

/-- What a bus read decodes to encodes to the read of the same index with DATA 0. -/
theorem encode_decodeBus_of_read {t : BitVec 41} (h : busIsWrite t = false) :
    encode (decodeBus t) = .bus (busRead (busIndex t)) := by
  rw [decodeBus, if_neg (Bool.eq_false_iff.mp h)]
  rfl

/-! ## The round trips -/

/-- Settles O1: each instruction is a row of one format, and that format's decoder reads its word back. -/
theorem decodeOfEncodeIsTheInstruction : Obligations.DecodeOfEncodeIsTheInstruction := by
  intro i hwf
  cases h : encode i with
  | cmd v => exact decodeCmd_of_encode h
  | recipe r => exact decodeRecipe_of_encode h hwf
  | entry e => exact decodeEntry_of_encode h hwf
  | bus t => exact congrArg Except.ok (decodeBus_of_encode h hwf)

/-- Settles O2, format by format. -/
theorem decodedWordsAreWellFormedAndEncodeBack : Obligations.DecodedWordsAreWellFormedAndEncodeBack := by
  refine ⟨fun v i h => ?_, fun r i h => wf_encode_of_decodeRecipe h, fun e i h => wf_encode_of_decodeEntry h,
    fun t i h => ?_⟩
  · have he := encode_of_decodeCmd h
    exact ⟨wf_of_encode_cmd he, he⟩
  · injection h with h
    exact h ▸ ⟨wf_decodeBus t, encode_decodeBus_of_write, encode_decodeBus_of_read⟩

end Sys2Proof

/-!
PROOFS. Host transactions (R58, R111 to R113, R116, R117): a command met while FAULT = 1, which words of CMD are illegal
(R55), and that every command and every transaction answers a next state.
-/

namespace Sys2Proof

/-! ## The fields of a command word as numbers (R53) -/

theorem cmdOp_toNat (v : BitVec 32) : (cmdOp v).toNat = v.toNat % 256 := by simp [cmdOp]

theorem cmdPat_toNat (v : BitVec 32) : (cmdPat v).toNat = v.toNat / 256 % 256 := by
  simp [cmdPat, Nat.shiftRight_eq_div_pow]

theorem cmdHigh_toNat (v : BitVec 32) : (cmdHigh v).toNat = v.toNat / 65536 := by
  have hv := v.isLt
  simp [cmdHigh, Nat.shiftRight_eq_div_pow]
  omega

theorem cmdOp_eq_six_iff (v : BitVec 32) : cmdOp v = 6 ↔ v.toNat % 256 = 0x06 := by
  rw [← cmdOp_toNat]
  exact BitVec.toNat_inj.symm

theorem cmdPat_eq_zero_iff (v : BitVec 32) : cmdPat v = 0 ↔ v.toNat / 256 % 256 = 0 := by
  rw [← cmdPat_toNat]
  exact BitVec.toNat_inj.symm

theorem cmdHigh_eq_zero_iff (v : BitVec 32) : cmdHigh v = 0 ↔ v.toNat / 65536 = 0 := by
  rw [← cmdHigh_toNat]
  exact BitVec.toNat_inj.symm

/-- The operations of R54: 0x00 to 0x08 and 0x10 to 0x19; the others are reserved. -/
theorem opcodeMap_isSome_iff (pat : BitVec 8) (op : Nat) :
    (opcodeMap pat op).isSome = true ↔ op ≤ 0x08 ∨ (0x10 ≤ op ∧ op ≤ 0x19) := by
  constructor
  · intro h
    unfold opcodeMap at h
    split at h
    case h_20 => cases h
    all_goals decide
  · rintro (h | ⟨hlo, hhi⟩) <;> interval_cases op <;> rfl

end Sys2Proof

namespace Sys2Proof.Machine

/-! ## Commands and the write of CMD (R113, R117) -/

/-- A command row met while FAULT = 1 is ignored (R117; log 16). -/
theorem exec_command_of_fault {i : Instr} {s : State} (hi : i.isCommand = true) (hf : s.fault = true) :
    exec i s = .next s := by
  cases i with
  | recipeCopy | recipeMix31 | recipeMix211 | recipeMix71 | recipeMix277 | recipeMix53 | recipeMix421 | recipeMix611
  | recipeMix233 | recipeMix1411 | recipeMix11 | entryPlain | entryCond | rd | wr | clrfault => cases hi
  | _ => exact command_of_fault s _ hf

theorem exec_wr_cmd (v : Word) (s : State) : exec (.wr 0x01 v) s = writeCmd v s := rfl

theorem exec_wr_cmd_of_fault (v : Word) {s : State} (hf : s.fault = true) : exec (.wr 0x01 v) s = .next s :=
  command_of_fault s _ hf

/-- The write of a rejected word raises ILLEGAL_CMD (R55, R113). -/
theorem exec_wr_cmd_of_error {v : Word} {r : Reject} {s : State} (hd : decodeCmd v = .error r) (hf : s.fault = false) :
    exec (.wr 0x01 v) s = .next { s with fault := true, faultCode := 0x01 } := by
  rw [exec_wr_cmd, writeCmd, command_of_no_fault _ _ hf, hd]
  exact congrArg Host.Outcome.next (raiseFault_of_no_fault .illegalCmd s hf)

/-- The write of an accepted word is the command it decodes to, with a fault pending too. -/
theorem exec_wr_cmd_of_ok {v : Word} {i : Instr} (hd : decodeCmd v = .ok i) (s : State) :
    exec (.wr 0x01 v) s = exec i s := by
  cases hf : s.fault with
  | true => rw [exec_wr_cmd_of_fault v hf, exec_command_of_fault (isCommand_of_decodeCmd hd) hf]
  | false => rw [exec_wr_cmd, writeCmd, command_of_no_fault _ _ hf, hd, ← runCommand_eq_exec s hd]

/-- Settles O4: the three checks of R55, said of the number written. -/
theorem commandWordRunsOrIsIllegal : Obligations.CommandWordRunsOrIsIllegal := by
  intro v s
  have hmapped : (opcodeMap (cmdPat v) (cmdOp v).toNat).isSome = true ↔
      v.toNat % 256 ≤ 0x08 ∨ (0x10 ≤ v.toNat % 256 ∧ v.toNat % 256 ≤ 0x19) := by
    rw [opcodeMap_isSome_iff, cmdOp_toNat]
  simp only [Ne, ← hmapped, ← cmdHigh_eq_zero_iff, ← cmdOp_eq_six_iff, ← cmdPat_eq_zero_iff]
  refine ⟨exec_wr_cmd_of_fault v, fun hf hillegal => ?_, fun hhigh hop hpat => ?_⟩
  · rw [Bool.not_eq_true, Option.isSome_eq_false_iff, Option.isNone_iff_eq_none] at hillegal
    exact exec_wr_cmd_of_error (decodeCmd_error hillegal) hf
  · obtain ⟨i, hi⟩ := Option.isSome_iff_exists.mp hop
    have hd := decodeCmd_ok hhigh hi hpat
    exact ⟨i, hd, encode_of_decodeCmd hd, exec_wr_cmd_of_ok hd s⟩

/-! ## Every transaction answers (R58, R61, R116) -/

/-- A command answers where its run does. -/
theorem command_answers {s : State} {run : Host.Outcome State Fault Refusal} (h : ∃ u, run = .next u) :
    ∃ u, command s run = .next u := by
  unfold command
  split
  · exact ⟨s, rfl⟩
  · exact h

/-- A command of the LUT answers where its run does. -/
theorem lutCommand_answers {s : State} {run : Host.Outcome State Fault Refusal} (h : ∃ u, run = .next u) :
    ∃ u, lutCommand s run = .next u := by
  refine command_answers ?_
  split
  · exact h
  · exact ⟨_, rfl⟩

theorem execMagnify_answers (s : State) : ∃ u, execMagnify s = .next u := by
  refine lutCommand_answers ?_
  split
  · exact ⟨_, rfl⟩
  · split <;> exact ⟨_, rfl⟩

/-- Every command row answers a next state, in every state. -/
theorem exec_command_answers {i : Instr} (hi : i.isCommand = true) (s : State) : ∃ u, exec i s = .next u := by
  cases i with
  | nop | lutInit | lutDeinit | mix31 | mix211 | mix71 | mix277 | mix53 | mix421 | mix611 | mix233 | mix1411 | mix11 =>
    exact command_answers ⟨_, rfl⟩
  | lookup | differs | classify | dispatch | pixel => exact lutCommand_answers ⟨_, rfl⟩
  | magnify => exact execMagnify_answers s
  | recipeCopy | recipeMix31 | recipeMix211 | recipeMix71 | recipeMix277 | recipeMix53 | recipeMix421 | recipeMix611
  | recipeMix233 | recipeMix1411 | recipeMix11 | entryPlain | entryCond | rd | wr | clrfault => cases hi

/-- Every write of CMD answers a next state. -/
theorem writeCmd_answers (v : Word) (s : State) : ∃ u, writeCmd v s = .next u := by
  cases hd : decodeCmd v with
  | ok i =>
    rw [← exec_wr_cmd, exec_wr_cmd_of_ok hd]
    exact exec_command_answers (isCommand_of_decodeCmd hd) s
  | error r =>
    rw [writeCmd, hd]
    exact command_answers ⟨_, rfl⟩

/-- Every host write answers a next state. -/
theorem execWr_answers (x : BitVec 8) (v : Word) (s : State) : ∃ u, execWr x v s = .next u := by
  unfold execWr
  split
  · exact ⟨_, rfl⟩
  · exact writeCmd_answers v s
  · exact ⟨_, rfl⟩
  · split <;> exact ⟨_, rfl⟩

/-- Every host read answers a next state. -/
theorem execRd_answers (x : BitVec 8) (s : State) : ∃ u, execRd x s = .next u := by
  obtain ⟨he, -⟩ | ⟨r, -, -, he⟩ := execRd_next x s <;> exact ⟨_, he⟩

/-- Settles O7. -/
theorem everyTransactionAnswersANextState : Obligations.EveryTransactionAnswersANextState := by
  intro s t
  unfold decodeBus
  split
  · split
    · exact ⟨_, exec_clrfault s⟩
    · exact execWr_answers (busIndex t) (busData t) s
  · exact execRd_answers (busIndex t) s

end Sys2Proof.Machine

/-!
PROOFS. Malformed tables, entries and recipes (R56 to R58, I8; log 12): which parameters give a core, that every table
address a command reads holds a well-formed entry, and that a single malformed recipe or entry is refused.
-/

namespace Sys2Proof.Machine

/-! ## Tables and instantiation (R58) -/

/-- R58 of both tables at once. -/
theorem tablesWf_iff (p : Params) :
    p.tablesWf = true ↔
      p.table3.length = 256 * 9 ∧ p.table4.length = 256 * 16 ∧ ∀ e ∈ p.table3 ++ p.table4, entryWf e = true := by
  simp only [Params.tablesWf, tableWf, Bool.and_eq_true, beq_iff_eq, List.all_eq_true, List.forall_mem_append]
  exact and_and_and_comm.trans and_assoc

/-- Every address of the table holds a well-formed entry. -/
theorem exists_entry_of_tableWf {n : Nat} {tab : List (BitVec 64)} (h : tableWf n tab = true) (q : BitVec 8) {k : Nat}
    (hk : k < n * n) : ∃ e, tab[q.toNat * (n * n) + k]? = some e ∧ entryWf e = true := by
  simp only [tableWf, Bool.and_eq_true, beq_iff_eq, List.all_eq_true] at h
  obtain ⟨hlength, hall⟩ := h
  have hlt : q.toNat * (n * n) + k < tab.length := hlength ▸ mul_factor_add_lt q.isLt hk
  exact ⟨_, List.getElem?_eq_getElem hlt, hall _ (List.getElem_mem hlt)⟩

/-- Parameters whose tables are not both well formed give no core. -/
theorem instantiate_of_malformedTable {p : Params} (h : p.tablesWf = false) :
    instantiate p = .refused .malformedTable := by
  obtain ⟨hwf, -⟩ | ⟨-, he⟩ | ⟨ht, -⟩ := instantiate_cases p
  · rw [Params.wf, h] at hwf; cases hwf
  · exact he
  · rw [h] at ht; cases ht

/-- Legal parameters give the core in its reset state. -/
theorem instantiate_of_wf {p : Params} (h : p.wf = true) : instantiate p = .next (State.resetOf ⟨p, h⟩) := by
  simp [instantiate, Chip.ofParams, h]

/-- The registers of State.resetOf hold the values of R127. -/
theorem resetOf_atReset (c : Chip) : (State.resetOf c).AtReset := by
  simp [State.AtReset, State.resetOf]

/-! ## Single recipes and entries (log 12) -/

/-- A recipe row runs as its recipe word. -/
theorem exec_of_encode_recipe {i : Instr} {r : BitVec 16} (h : encode i = .recipe r) (s : State) :
    exec i s = recipeStep r s := by
  cases i with
  | recipeCopy | recipeMix31 | recipeMix71 | recipeMix53 | recipeMix11 | recipeMix211 | recipeMix277 | recipeMix421
  | recipeMix611 | recipeMix233 | recipeMix1411 => cases h; rfl
  | _ => cases h

/-- An entry row runs as its entry. -/
theorem exec_of_encode_entry {i : Instr} {e : BitVec 64} (h : encode i = .entry e) (s : State) :
    exec i s = entryStep e s := by
  cases i with
  | entryPlain | entryCond => cases h; rfl
  | _ => cases h

theorem recipeStep_of_malformed {r : BitVec 16} (h : recipeWf r = false) (s : State) :
    recipeStep r s = .refused .malformedRecipe :=
  if_neg (Bool.eq_false_iff.mp h)

theorem entryStep_of_malformed {e : BitVec 64} (h : entryWf e = false) (s : State) :
    entryStep e s = .refused .malformedEntry :=
  if_neg (Bool.eq_false_iff.mp h)

/-- The bus rows are well formed but for a write. -/
theorem wf_of_encode_bus {i : Instr} {t : BitVec 41} (h : encode i = .bus t) (hwr : ∀ x v, i ≠ .wr x v) : i.wf = true := by
  cases i with
  | rd | clrfault => rfl
  | wr x v => exact absurd rfl (hwr x v)
  | _ => cases h

/-- An instruction that is not well formed is refused: it is a recipe or an entry, and so is its word. -/
theorem exec_of_not_wf {i : Instr} (hwf : i.wf = false) (hwr : ∀ x v, i ≠ .wr x v) (s : State) :
    exec i s = .refused .malformedRecipe ∨ exec i s = .refused .malformedEntry := by
  cases h : encode i with
  | cmd v => rw [wf_of_encode_cmd h] at hwf; cases hwf
  | recipe r =>
    rw [wf_of_encode_recipe h] at hwf
    exact .inl ((exec_of_encode_recipe h s).trans (recipeStep_of_malformed hwf s))
  | entry e =>
    rw [wf_of_encode_entry h] at hwf
    exact .inr ((exec_of_encode_entry h s).trans (entryStep_of_malformed hwf s))
  | bus t => rw [wf_of_encode_bus h hwr] at hwf; cases hwf

/-- Settles O53. -/
theorem illFormedRecipesAndEntriesAreRefused : Obligations.IllFormedRecipesAndEntriesAreRefused := by
  refine ⟨fun p hbad => instantiate_of_malformedTable ?_, fun p h3 h4 hall hlo hhi => ?_,
    fun s q k hk => exists_entry_of_tableWf (table_wf s) q hk, fun i s hwf hwr => exec_of_not_wf hwf hwr s⟩
  · rw [Bool.eq_false_iff, Ne, tablesWf_iff]
    rintro ⟨h3, h4, hall⟩
    obtain hne | hne | ⟨e, he, hmalformed⟩ := hbad
    · exact hne h3
    · exact hne h4
    · rw [hall e he] at hmalformed; cases hmalformed
  · have hmem : p.memoryOk = true := by
      rw [Params.memoryOk, Bool.and_eq_true, decide_eq_true_eq, decide_eq_true_eq]
      exact ⟨hlo, hhi⟩
    have hwf : p.wf = true := by rw [Params.wf, (tablesWf_iff p).mpr ⟨h3, h4, hall⟩, hmem]; rfl
    exact ⟨_, instantiate_of_wf hwf, rfl, resetOf_atReset _⟩

end Sys2Proof.Machine

/-!
PROOFS. The colour-space cache (R62 to R68): its commands, the entry of an RGB value as the sum of its channels, and the
channels under EXACT arithmetic.
-/

namespace Sys2Proof.Machine

/-! ## The commands of the LUT (R65 to R68) -/

/-- Settles O30. -/
theorem lutInitAndDeinitSetLutValid : Obligations.LutInitAndDeinitSetLutValid :=
  fun s hf => ⟨command_of_no_fault s _ hf, command_of_no_fault s _ hf⟩

/-- Settles O25. -/
theorem lutCommandsNeedTheLut : Obligations.LutCommandsNeedTheLut := by
  intro i s hf hl hi
  have hraise (run : Host.Outcome State Fault Refusal) :
      lutCommand s run = .next { s with fault := true, faultCode := 0x02 } := by
    rw [lutCommand_of_not_ready s run hf hl, raiseFault_of_no_fault _ s hf]
    rfl
  obtain rfl | rfl | rfl | ⟨pat, rfl⟩ | rfl | rfl := hi <;> exact hraise _

/-- LOOKUP with the LUT filled (R67). -/
theorem exec_lookup_of_ready {s : State} (hf : s.fault = false) (hl : s.lutValid = true) :
    exec .lookup s = .next { s with result := (yuv s.cfg (rgbOf s.opa)).setWidth 32 } :=
  lutCommand_of_ready s _ hf hl

/-- zext32 of an LUT entry (R9). -/
theorem setWidth_eq_zero_append (q : Rgb) : q.setWidth 32 = (0 : BitVec 8) ++ q :=
  BitVec.setWidth_eq_append (by decide)

/-- Settles O31. -/
theorem lookupWritesTheEntryOfOpa : Obligations.LookupWritesTheEntryOfOpa := by
  intro s hf hl
  rw [exec_lookup_of_ready hf hl, setWidth_eq_zero_append, rgbOf]

/-! ## The channels of an RGB value and its entry (R62) -/

theorem rgbR_bounds (i : Rgb) : 0 ≤ rgbR i ∧ rgbR i ≤ 255 := by unfold rgbR; omega
theorem rgbG_bounds (i : Rgb) : 0 ≤ rgbG i ∧ rgbG i ≤ 255 := by unfold rgbG; omega
theorem rgbB_bounds (i : Rgb) : 0 ≤ rgbB i ∧ rgbB i ≤ 255 := by unfold rgbB; omega

theorem rgbR_rgbOf (c : Word) : rgbR (rgbOf c) = (c.toNat / 65536 % 256 : Nat) := by
  simp [rgbR, rgbOf, Nat.shiftRight_eq_div_pow]
theorem rgbG_rgbOf (c : Word) : rgbG (rgbOf c) = (c.toNat / 256 % 256 : Nat) := by
  simp [rgbG, rgbOf, Nat.shiftRight_eq_div_pow]
theorem rgbB_rgbOf (c : Word) : rgbB (rgbOf c) = (c.toNat % 256 : Nat) := by
  simp [rgbB, rgbOf]

theorem toNat_ofInt_byte {x : Int} (h : 0 ≤ x ∧ x ≤ 255) : ((BitVec.ofInt 8 x).toNat : Int) = x := by
  rw [BitVec.toNat_ofInt]
  omega

/-- Channels that fit in a byte stand in the entry as they are. -/
theorem yuv_toNat {p : Params} {i : Rgb} {y u v : Int} (hy : lumaY p (rgbR i) (rgbG i) (rgbB i) = y)
    (hu : chromaU p (rgbR i) (rgbG i) (rgbB i) = u) (hv : chromaV p (rgbR i) (rgbG i) (rgbB i) = v)
    (hyb : 0 ≤ y ∧ y ≤ 255) (hub : 0 ≤ u ∧ u ≤ 255) (hvb : 0 ≤ v ∧ v ≤ 255) :
    ((yuv p i).toNat : Int) = y * 65536 + u * 256 + v := by
  rw [yuv, hy, hu, hv, toNat_append_add, toNat_append_add]
  push_cast
  rw [toNat_ofInt_byte hyb, toNat_ofInt_byte hub, toNat_ofInt_byte hvb]
  omega

/-! ## Truncation toward zero -/

theorem mul_tdiv_bounds_of_nonneg {a d : Int} (ha : 0 ≤ a) (hd : 0 < d) :
    d * a.tdiv d ≤ a ∧ a < d * a.tdiv d + d :=
  ⟨Int.mul_tdiv_self_le ha, Int.lt_mul_tdiv_self_add hd⟩

theorem mul_tdiv_bounds_of_nonpos {a d : Int} (ha : a ≤ 0) (hd : 0 < d) :
    a ≤ d * a.tdiv d ∧ d * a.tdiv d < a + d := by
  have h := mul_tdiv_bounds_of_nonneg (Int.neg_nonneg_of_nonpos ha) hd
  rw [Int.neg_tdiv, Int.mul_neg] at h
  omega

/-! ## EXACT arithmetic (R62, R63) -/

section
variable {r g b : Int} (hr : 0 ≤ r ∧ r ≤ 255) (hg : 0 ≤ g ∧ g ≤ 255) (hb : 0 ≤ b ∧ b ≤ 255)
include hr hg hb

theorem exactY_bounds : 0 ≤ exactY r g b ∧ exactY r g b ≤ 255 := by unfold exactY; omega

theorem numU_bounds : -127500 ≤ numU r g b ∧ numU r g b ≤ 127500 := by unfold numU; omega

theorem numV_bounds : -127500 ≤ numV r g b ∧ numV r g b ≤ 127500 := by unfold numV; omega

end

theorem tdiv_thousand_bounds {n : Int} (hn : -127500 ≤ n ∧ n ≤ 127500) : -127 ≤ n.tdiv 1000 ∧ n.tdiv 1000 ≤ 127 := by
  obtain h | h := Int.le_total 0 n
  · have hq := mul_tdiv_bounds_of_nonneg h (by decide : (0 : Int) < 1000)
    omega
  · have hq := mul_tdiv_bounds_of_nonpos h (by decide : (0 : Int) < 1000)
    omega

/-- 128000 plus a chroma numerator is positive, so that truncating it is flooring it. -/
theorem exactUV_whole {num : Int} (hnum : -127500 ≤ num ∧ num ≤ 127500) :
    exactUV .whole num = (128000 + num) / 1000 :=
  Int.tdiv_eq_ediv_of_nonneg (by omega)

theorem exactUV_chromaFirst (num : Int) : exactUV .chromaFirst num = 128 + num.tdiv 1000 := rfl

theorem exactUV_bounds (t : UvTrunc) {num : Int} (hnum : -127500 ≤ num ∧ num ≤ 127500) :
    (0 ≤ exactUV t num ∧ exactUV t num ≤ 255) ∧ (t = .chromaFirst → 1 ≤ exactUV t num) := by
  cases t with
  | whole =>
    rw [exactUV_whole hnum]
    exact ⟨by omega, fun h => by cases h⟩
  | chromaFirst =>
    have hq := tdiv_thousand_bounds hnum
    rw [exactUV_chromaFirst]
    exact ⟨by omega, fun _ => by omega⟩

theorem lumaY_of_exact {p : Params} (h : p.yuvArith = .exact) (r g b : Int) : lumaY p r g b = exactY r g b := by
  rw [lumaY, h]

theorem chromaU_of_exact {p : Params} (h : p.yuvArith = .exact) (r g b : Int) :
    chromaU p r g b = exactUV p.uvTrunc (numU r g b) := by
  rw [chromaU, h]

theorem chromaV_of_exact {p : Params} (h : p.yuvArith = .exact) (r g b : Int) :
    chromaV p r g b = exactUV p.uvTrunc (numV r g b) := by
  rw [chromaV, h]

/-- Settles O34. -/
theorem exactChannelsFitInAByte : Obligations.ExactChannelsFitInAByte := by
  intro p i h
  have hr := rgbR_bounds i
  have hg := rgbG_bounds i
  have hb := rgbB_bounds i
  rw [lumaY_of_exact h, chromaU_of_exact h, chromaV_of_exact h]
  obtain ⟨hy0, hy1⟩ := exactY_bounds hr hg hb
  obtain ⟨⟨hu0, hu1⟩, hu⟩ := exactUV_bounds p.uvTrunc (numU_bounds hr hg hb)
  obtain ⟨⟨hv0, hv1⟩, hv⟩ := exactUV_bounds p.uvTrunc (numV_bounds hr hg hb)
  exact ⟨hy0, hy1, hu0, hu1, hv0, hv1, fun ht => ⟨hu ht, hv ht⟩⟩

/-- The entry of an RGB value under EXACT arithmetic. -/
theorem yuv_toNat_of_exact {p : Params} (h : p.yuvArith = .exact) (i : Rgb) :
    ((yuv p i).toNat : Int) = exactY (rgbR i) (rgbG i) (rgbB i) * 65536 +
      exactUV p.uvTrunc (numU (rgbR i) (rgbG i) (rgbB i)) * 256 +
      exactUV p.uvTrunc (numV (rgbR i) (rgbG i) (rgbB i)) := by
  have hr := rgbR_bounds i
  have hg := rgbG_bounds i
  have hb := rgbB_bounds i
  exact yuv_toNat (lumaY_of_exact h _ _ _) (chromaU_of_exact h _ _ _) (chromaV_of_exact h _ _ _)
    (exactY_bounds hr hg hb) (exactUV_bounds _ (numU_bounds hr hg hb)).1 (exactUV_bounds _ (numV_bounds hr hg hb)).1

/-- Settles O32. -/
theorem lookupUnderExactArithmetic : Obligations.LookupUnderExactArithmetic := by
  intro s r g b hf hl harith hr hg hb
  have hrgb : rgbR (rgbOf s.opa) = r ∧ rgbG (rgbOf s.opa) = g ∧ rgbB (rgbOf s.opa) = b := by
    rw [hr, hg, hb]
    exact ⟨rgbR_rgbOf _, rgbG_rgbOf _, rgbB_rgbOf _⟩
  have hresult : (((yuv s.cfg (rgbOf s.opa)).setWidth 32).toNat : Int) =
      exactY r g b * 65536 + exactUV s.cfg.uvTrunc (numU r g b) * 256 + exactUV s.cfg.uvTrunc (numV r g b) := by
    obtain ⟨hr', hg', hb'⟩ := hrgb
    rw [BitVec.toNat_setWidth_of_le (by decide), yuv_toNat_of_exact harith, hr', hg', hb']
  refine ⟨_, exec_lookup_of_ready hf hl, rfl, fun ht => ?_, fun ht => ?_⟩
  · have hr255 : 0 ≤ (r : Int) ∧ (r : Int) ≤ 255 := by omega
    have hg255 : 0 ≤ (g : Int) ∧ (g : Int) ≤ 255 := by omega
    have hb255 : 0 ≤ (b : Int) ∧ (b : Int) ≤ 255 := by omega
    have hU : 128000 + numU r g b = (128000 + 500 * b - 169 * r - 331 * g : Nat) := by unfold numU; omega
    have hV : 128000 + numV r g b = (128000 + 500 * r - 419 * g - 81 * b : Nat) := by unfold numV; omega
    rw [ht, exactUV_whole (numU_bounds hr255 hg255 hb255), exactUV_whole (numV_bounds hr255 hg255 hb255), hU, hV,
      exactY] at hresult
    exact_mod_cast hresult
  · rw [ht] at hresult
    have hU : numU r g b = 500 * b - 169 * r - 331 * g := by unfold numU; omega
    rw [hU] at hresult
    exact hresult

end Sys2Proof.Machine

/-!
PROOFS. The channels under BINARY64 (R62, R63): each rounding moves a value below 2^65 units by at most 2^11 units, so the
sums of R62 stay so close to their exact values that truncating them moves a channel by one at most.
-/

namespace Sys2Proof.Machine

/-! ## Rounding to 53 bits (R62) -/

/-- Rounding moves a number of 54 bits or more by at most half of a unit in its last place. -/
theorem two_mul_roundNat53_error_le {n : Nat} (h : 2 ^ 53 ≤ n) :
    2 * ((roundNat53 n : Int) - n).natAbs ≤ 2 ^ (Nat.log2 n - 52) := by
  have hlog : 53 ≤ Nat.log2 n := (Nat.le_log2 (by omega)).mpr h
  obtain ⟨k, hk⟩ : ∃ k, Nat.log2 n - 52 = k + 1 := ⟨Nat.log2 n - 53, by omega⟩
  have hdiv := Nat.div_add_mod n (2 ^ (k + 1))
  have hlt := Nat.mod_lt n (Nat.two_pow_pos (k + 1))
  have hpow : 2 ^ (k + 1) = 2 * 2 ^ k := Nat.pow_succ'
  simp only [roundNat53, if_neg (Nat.not_lt.mpr h), hk, Nat.shiftRight_eq_div_pow, Nat.shiftLeft_eq,
    Nat.add_sub_cancel]
  rw [Nat.mul_comm] at hdiv
  split
  · next hup =>
    rw [Nat.add_mul, Nat.one_mul]
    omega
  · next hdown => omega

/-- Below 2^65 rounding moves a number by at most 2^11. -/
theorem roundNat53_error_le {n : Nat} (h : n < 2 ^ 65) : ((roundNat53 n : Int) - n).natAbs ≤ 2 ^ 11 := by
  obtain hsmall | hbig := Nat.lt_or_ge n (2 ^ 53)
  · have hexact : roundNat53 n = n := if_pos hsmall
    omega
  · have hlog : Nat.log2 n < 65 := (Nat.log2_lt (by omega)).mpr h
    have hulp : 2 ^ (Nat.log2 n - 52) ≤ 2 ^ 12 := Nat.pow_le_pow_right (by decide) (by omega)
    have herror := two_mul_roundNat53_error_le hbig
    omega

theorem round64_error_le {x : Int} (h : x.natAbs < 2 ^ 65) : (round64 x - x).natAbs ≤ 2 ^ 11 := by
  cases x with
  | ofNat n => exact roundNat53_error_le h
  | negSucc n =>
    have herror : ((roundNat53 (n + 1) : Int) - (n + 1 : Nat)).natAbs ≤ 2 ^ 11 := roundNat53_error_le h
    show (-(roundNat53 (n + 1) : Int) - Int.negSucc n).natAbs ≤ 2 ^ 11
    omega

/-! ## Errors of the BINARY64 chain -/

/-- The number a of units of 2^-56 is n / 1000 up to an error of e thousandths of a unit. -/
def Approx (e a n : Int) : Prop := 2 ^ 56 * n - e ≤ 1000 * a ∧ 1000 * a ≤ 2 ^ 56 * n + e

theorem Approx.weaken {e f a m n : Int} (h : Approx e a m) (he : e ≤ f) (hn : m = n) : Approx f a n := by
  unfold Approx at *
  omega

theorem Approx.add {e f a b m n : Int} (ha : Approx e a m) (hb : Approx f b n) : Approx (e + f) (a + b) (m + n) := by
  unfold Approx at *
  omega

theorem Approx.neg {e a n : Int} (h : Approx e a n) : Approx e (-a) (-n) := by
  unfold Approx at *
  omega

/-- A rounding adds at most 2^11 units, as the bounds on n and e keep the number rounded below 512 = 2^65 units. -/
theorem Approx.round64 {e a n : Int} (h : Approx e a n) (he : e ≤ 2 ^ 30) (hn : n.natAbs ≤ 511000) :
    Approx (e + 2 ^ 21) (round64 a) n := by
  unfold Approx at *
  have herror : (Machine.round64 a - a).natAbs ≤ 2 ^ 11 := round64_error_le (by omega)
  omega

/-- A literal is right to 4 units, half of the last place of the largest, 0.587. -/
theorem Approx.mul64 {c m k : Int} (h : Approx 4000 c m) (hm : m.natAbs ≤ 1000) (hk : 0 ≤ k ∧ k ≤ 255) :
    Approx (2 ^ 22) (mul64 c k) (m * k) := by
  have hprod : Approx (255 * 4000) (c * k) (m * k) := by
    obtain ⟨hlo, hhi⟩ := h
    obtain ⟨h0, h255⟩ := hk
    constructor <;> nlinarith
  have hbound : (m * k).natAbs ≤ 511000 := by
    rw [Int.natAbs_mul]
    exact (Nat.mul_le_mul hm (by omega : k.natAbs ≤ 255)).trans (by decide)
  exact (hprod.round64 (by decide) hbound).weaken (by decide) rfl

theorem Approx.add64 {e f a b m n : Int} (ha : Approx e a m) (hb : Approx f b n) (he : e + f ≤ 2 ^ 30)
    (hn : (m + n).natAbs ≤ 511000) : Approx (e + f + 2 ^ 21) (add64 a b) (m + n) :=
  (ha.add hb).round64 he hn

theorem Approx.sub64 {e f a b m n : Int} (ha : Approx e a m) (hb : Approx f b n) (he : e + f ≤ 2 ^ 30)
    (hn : (m - n).natAbs ≤ 511000) : Approx (e + f + 2 ^ 21) (sub64 a b) (m - n) := by
  rw [Machine.sub64, Int.sub_eq_add_neg, Int.sub_eq_add_neg]
  exact (ha.add hb.neg).round64 he hn

theorem approx_lit299 : Approx 4000 lit299 299 := by unfold Approx lit299; decide
theorem approx_lit587 : Approx 4000 lit587 587 := by unfold Approx lit587; decide
theorem approx_lit114 : Approx 4000 lit114 114 := by unfold Approx lit114; decide
theorem approx_lit169 : Approx 4000 lit169 169 := by unfold Approx lit169; decide
theorem approx_lit331 : Approx 4000 lit331 331 := by unfold Approx lit331; decide
theorem approx_lit500 : Approx 4000 lit500 500 := by unfold Approx lit500; decide
theorem approx_lit419 : Approx 4000 lit419 419 := by unfold Approx lit419; decide
theorem approx_lit081 : Approx 4000 lit081 81 := by unfold Approx lit081; decide

theorem approx_lit128 : Approx 0 lit128 128000 := by unfold Approx lit128; decide

/-! ## The sums of R62 under BINARY64

Each is within 2^25 thousandths of a unit of its exact sum, a whole number of thousandths; one thousandth is 2^56
thousandths of a unit. -/

section
variable {r g b : Int} (hr : 0 ≤ r ∧ r ≤ 255) (hg : 0 ≤ g ∧ g ≤ 255) (hb : 0 ≤ b ∧ b ≤ 255)
include hr hg hb

theorem binaryY_approx : ∃ a, binaryY r g b = toInt64 a ∧ Approx (2 ^ 25) a (299 * r + 587 * g + 114 * b) := by
  have hred := approx_lit299.mul64 (by decide) hr
  have hgreen := approx_lit587.mul64 (by decide) hg
  have hblue := approx_lit114.mul64 (by decide) hb
  have hsum := hred.add64 hgreen (by decide) (by omega)
  exact ⟨_, rfl, (hsum.add64 hblue (by decide) (by omega)).weaken (by decide) rfl⟩

theorem binaryU_whole_approx :
    ∃ a, binaryU .whole r g b = toInt64 a ∧ Approx (2 ^ 25) a (128000 + numU r g b) := by
  have hred := approx_lit128.sub64 (approx_lit169.mul64 (by decide) hr) (by decide) (by omega)
  have hgreen := hred.sub64 (approx_lit331.mul64 (by decide) hg) (by decide) (by omega)
  have hblue := hgreen.add64 (approx_lit500.mul64 (by decide) hb) (by decide) (by omega)
  exact ⟨_, rfl, hblue.weaken (by decide) (by unfold numU; omega)⟩

theorem binaryU_chromaFirst_approx :
    ∃ a, binaryU .chromaFirst r g b = toInt64 a + 128 ∧ Approx (2 ^ 25) a (numU r g b) := by
  have hred := approx_lit169.neg.mul64 (by decide) hr
  have hgreen := hred.sub64 (approx_lit331.mul64 (by decide) hg) (by decide) (by omega)
  have hblue := hgreen.add64 (approx_lit500.mul64 (by decide) hb) (by decide) (by omega)
  exact ⟨_, rfl, hblue.weaken (by decide) rfl⟩

theorem binaryV_whole_approx :
    ∃ a, binaryV .whole r g b = toInt64 a ∧ Approx (2 ^ 25) a (128000 + numV r g b) := by
  have hred := approx_lit128.add64 (approx_lit500.mul64 (by decide) hr) (by decide) (by omega)
  have hgreen := hred.sub64 (approx_lit419.mul64 (by decide) hg) (by decide) (by omega)
  have hblue := hgreen.sub64 (approx_lit081.mul64 (by decide) hb) (by decide) (by omega)
  exact ⟨_, rfl, hblue.weaken (by decide) (by unfold numV; omega)⟩

theorem binaryV_chromaFirst_approx :
    ∃ a, binaryV .chromaFirst r g b = toInt64 a + 128 ∧ Approx (2 ^ 25) a (numV r g b) := by
  have hred := approx_lit500.mul64 (by decide) hr
  have hgreen := hred.sub64 (approx_lit419.mul64 (by decide) hg) (by decide) (by omega)
  have hblue := hgreen.sub64 (approx_lit081.mul64 (by decide) hb) (by decide) (by omega)
  exact ⟨_, rfl, hblue.weaken (by decide) rfl⟩

end

/-! ## What truncation makes of an approximation -/

/-- The sign of a says which side toInt64 truncates to. -/
theorem toInt64_bounds (a : Int) :
    (0 ≤ a ∧ 2 ^ 56 * toInt64 a ≤ a ∧ a < 2 ^ 56 * toInt64 a + 2 ^ 56) ∨
    (a ≤ 0 ∧ a ≤ 2 ^ 56 * toInt64 a ∧ 2 ^ 56 * toInt64 a < a + 2 ^ 56) :=
  (Int.le_total 0 a).imp (fun h => ⟨h, mul_tdiv_bounds_of_nonneg h (by decide)⟩)
    (fun h => ⟨h, mul_tdiv_bounds_of_nonpos h (by decide)⟩)

theorem Approx.toInt64_of_nonneg {a n : Int} (h : Approx (2 ^ 25) a n) (hn : 0 ≤ n) :
    (toInt64 a = n / 1000 ∨ toInt64 a = n / 1000 - 1) ∧ 0 ≤ toInt64 a := by
  obtain ⟨hlo, hhi⟩ := h
  obtain hpos | hneg := toInt64_bounds a
  · omega
  · have hzero : n = 0 := by omega
    have htrunc : toInt64 a = 0 := by omega
    omega

theorem Approx.toInt64_near {a n : Int} (h : Approx (2 ^ 25) a n) : (toInt64 a - n.tdiv 1000).natAbs ≤ 1 := by
  obtain ⟨hlo, hhi⟩ := h
  have htrunc := toInt64_bounds a
  obtain hn | hn := Int.le_total 0 n
  · have hq := mul_tdiv_bounds_of_nonneg hn (by decide : (0 : Int) < 1000)
    omega
  · have hq := mul_tdiv_bounds_of_nonpos hn (by decide : (0 : Int) < 1000)
    omega

theorem Approx.toInt64_chroma {a n : Int} (h : Approx (2 ^ 25) a n) (hn : -127500 ≤ n ∧ n ≤ 127500) :
    -127 ≤ toInt64 a ∧ toInt64 a ≤ 127 := by
  obtain ⟨hlo, hhi⟩ := h
  have htrunc := toInt64_bounds a
  omega

/-! ## The channels under BINARY64 (R62, R63) -/

theorem binaryY_near {r g b : Int} (hr : 0 ≤ r ∧ r ≤ 255) (hg : 0 ≤ g ∧ g ≤ 255) (hb : 0 ≤ b ∧ b ≤ 255) :
    (binaryY r g b = exactY r g b ∨ binaryY r g b = exactY r g b - 1) ∧ 0 ≤ binaryY r g b ∧ binaryY r g b ≤ 255 := by
  obtain ⟨a, ha, happrox⟩ := binaryY_approx hr hg hb
  have htrunc := happrox.toInt64_of_nonneg (by omega)
  have hbounds := exactY_bounds hr hg hb
  rw [ha]
  unfold exactY at *
  omega

/-- What R62 and R63 say of a chroma channel x under BINARY64, from its chroma numerator. -/
def BinaryChroma (t : UvTrunc) (x num : Int) : Prop :=
  match t with
  | .whole => (x = (128000 + num) / 1000 ∨ x = (128000 + num) / 1000 - 1) ∧ 0 ≤ x ∧ x ≤ 255
  | .chromaFirst => (x - (128 + num.tdiv 1000)).natAbs ≤ 1 ∧ 1 ≤ x ∧ x ≤ 255

theorem Approx.binaryChroma_whole {a num : Int} (h : Approx (2 ^ 25) a (128000 + num))
    (hnum : -127500 ≤ num ∧ num ≤ 127500) : BinaryChroma .whole (toInt64 a) num := by
  have htrunc := h.toInt64_of_nonneg (by omega)
  unfold BinaryChroma
  omega

theorem Approx.binaryChroma_chromaFirst {a num : Int} (h : Approx (2 ^ 25) a num)
    (hnum : -127500 ≤ num ∧ num ≤ 127500) : BinaryChroma .chromaFirst (toInt64 a + 128) num := by
  have hnear := h.toInt64_near
  have hbounds := h.toInt64_chroma hnum
  unfold BinaryChroma
  omega

theorem binaryU_binaryChroma (t : UvTrunc) {r g b : Int} (hr : 0 ≤ r ∧ r ≤ 255) (hg : 0 ≤ g ∧ g ≤ 255)
    (hb : 0 ≤ b ∧ b ≤ 255) : BinaryChroma t (binaryU t r g b) (numU r g b) := by
  cases t with
  | whole =>
    obtain ⟨a, ha, happrox⟩ := binaryU_whole_approx hr hg hb
    exact ha ▸ happrox.binaryChroma_whole (numU_bounds hr hg hb)
  | chromaFirst =>
    obtain ⟨a, ha, happrox⟩ := binaryU_chromaFirst_approx hr hg hb
    exact ha ▸ happrox.binaryChroma_chromaFirst (numU_bounds hr hg hb)

theorem binaryV_binaryChroma (t : UvTrunc) {r g b : Int} (hr : 0 ≤ r ∧ r ≤ 255) (hg : 0 ≤ g ∧ g ≤ 255)
    (hb : 0 ≤ b ∧ b ≤ 255) : BinaryChroma t (binaryV t r g b) (numV r g b) := by
  cases t with
  | whole =>
    obtain ⟨a, ha, happrox⟩ := binaryV_whole_approx hr hg hb
    exact ha ▸ happrox.binaryChroma_whole (numV_bounds hr hg hb)
  | chromaFirst =>
    obtain ⟨a, ha, happrox⟩ := binaryV_chromaFirst_approx hr hg hb
    exact ha ▸ happrox.binaryChroma_chromaFirst (numV_bounds hr hg hb)

theorem BinaryChroma.whole {t : UvTrunc} {x num : Int} (h : BinaryChroma t x num) (ht : t = .whole) :
    x = (128000 + num) / 1000 ∨ x = (128000 + num) / 1000 - 1 := by
  subst ht
  exact h.1

theorem BinaryChroma.chromaFirst {t : UvTrunc} {x num : Int} (h : BinaryChroma t x num) (ht : t = .chromaFirst) :
    (x - (128 + num.tdiv 1000)).natAbs ≤ 1 ∧ 1 ≤ x := by
  subst ht
  exact ⟨h.1, h.2.1⟩

theorem BinaryChroma.bounds {t : UvTrunc} {x num : Int} (h : BinaryChroma t x num) : 0 ≤ x ∧ x ≤ 255 := by
  cases t with
  | whole => exact h.2
  | chromaFirst =>
    obtain ⟨-, hlo, hhi⟩ := h
    omega

theorem lumaY_of_binary64 {p : Params} (h : p.yuvArith = .binary64) (r g b : Int) : lumaY p r g b = binaryY r g b := by
  rw [lumaY, h]

theorem chromaU_of_binary64 {p : Params} (h : p.yuvArith = .binary64) (r g b : Int) :
    chromaU p r g b = binaryU p.uvTrunc r g b := by
  rw [chromaU, h]

theorem chromaV_of_binary64 {p : Params} (h : p.yuvArith = .binary64) (r g b : Int) :
    chromaV p r g b = binaryV p.uvTrunc r g b := by
  rw [chromaV, h]

/-- Settles O35. -/
theorem binaryChannelsFitInAByte : Obligations.BinaryChannelsFitInAByte := by
  intro p i r g b y nu nv h hr hg hb hy hnu hnv
  have hr255 := hr ▸ rgbR_bounds i
  have hg255 := hg ▸ rgbG_bounds i
  have hb255 := hb ▸ rgbB_bounds i
  rw [← hr, ← hg, ← hb, lumaY_of_binary64 h, chromaU_of_binary64 h, chromaV_of_binary64 h]
  have hU : numU r g b = nu := by unfold numU; omega
  have hV : numV r g b = nv := by unfold numV; omega
  obtain ⟨hynear, hy0, hy255⟩ := binaryY_near hr255 hg255 hb255
  have hu := hU ▸ binaryU_binaryChroma p.uvTrunc hr255 hg255 hb255
  have hv := hV ▸ binaryV_binaryChroma p.uvTrunc hr255 hg255 hb255
  rw [exactY, ← hy] at hynear
  exact ⟨hynear, fun ht => ⟨hu.whole ht, hv.whole ht⟩,
    fun ht => ⟨(hu.chromaFirst ht).1, (hv.chromaFirst ht).1⟩, hy0, hy255, hu.bounds.1, hu.bounds.2, hv.bounds.1,
    hv.bounds.2, fun ht => ⟨(hu.chromaFirst ht).2, (hv.chromaFirst ht).2⟩⟩

end Sys2Proof.Machine

/-!
PROOFS. The neighbour difference classifier (R69 to R75): differs as the disjunction of its four channel tests, what the
latched thresholds are worth, the bits of the edge pattern, and the commands DIFFERS and CLASSIFY.
-/

namespace Sys2Proof.Machine

/-! ## Distances of naturals (R9) -/

@[simp] theorem absDiff_self (a : Nat) : absDiff a a = 0 := by simp [absDiff]

theorem absDiff_comm (a b : Nat) : absDiff a b = absDiff b a := by
  rw [absDiff, ← Int.natAbs_neg, Int.neg_sub, absDiff]

/-- Shifting both channels into the same position scales their distance. -/
theorem absDiff_mul (a b k : Nat) : absDiff (a * k) (b * k) = absDiff a b * k := by
  rw [absDiff, absDiff, Int.natCast_mul, Int.natCast_mul, ← Int.sub_mul, Int.natAbs_mul, Int.natAbs_natCast]

theorem absDiff_byte_le (x y : BitVec 8) : absDiff x.toNat y.toNat ≤ 255 := by
  unfold absDiff
  omega

/-! ## The channels compared (R13) -/

theorem yByte_toNat (q : Rgb) : (yByte q).toNat = q.toNat / 65536 := by
  rw [yByte, BitVec.extractLsb'_toNat, Nat.shiftRight_eq_div_pow]
  omega
theorem uByte_toNat (q : Rgb) : (uByte q).toNat = q.toNat / 256 % 256 := by
  simp [uByte, Nat.shiftRight_eq_div_pow]
theorem vByte_toNat (q : Rgb) : (vByte q).toNat = q.toNat % 256 := by
  simp [vByte]

/-- Two bytes read as alpha, both signed or both unsigned, are at most 255 apart. -/
theorem alphaOf_sub_natAbs_le (p : Params) (c1 c2 : Word) : (alphaOf p c1 - alphaOf p c2).natAbs ≤ 255 := by
  unfold alphaOf
  cases p.alphaShift with
  | arith =>
    have h1 := (alphaByte c1).toInt_lt
    have h1' := (alphaByte c1).le_toInt
    have h2 := (alphaByte c2).toInt_lt
    have h2' := (alphaByte c2).le_toInt
    dsimp only
    omega
  | logical => exact absDiff_byte_le (alphaByte c1) (alphaByte c2)

theorem alphaOf_congr {c c' : Word} (h : alphaByte c = alphaByte c') (p : Params) : alphaOf p c = alphaOf p c' := by
  rw [alphaOf, alphaOf, h]

/-! ## The predicate differs (R69 to R71) -/

/-- R69 with the shift of Y and of U taken out of the distance. -/
theorem differs_iff (p : Params) (e : EffThr) (c1 c2 : Word) :
    differs p e c1 c2 = true ↔
      e.y.toNat < absDiff (yByte (yuv p (rgbOf c1))).toNat (yByte (yuv p (rgbOf c2))).toNat * 2 ^ 16 ∨
      e.u.toNat < absDiff (uByte (yuv p (rgbOf c1))).toNat (uByte (yuv p (rgbOf c2))).toNat * 2 ^ 8 ∨
      e.v.toNat < absDiff (vByte (yuv p (rgbOf c1))).toNat (vByte (yuv p (rgbOf c2))).toNat ∨
      e.a.toNat < (alphaOf p c1 - alphaOf p c2).natAbs := by
  simp only [differs, absDiff_mul, Bool.or_eq_true, decide_eq_true_eq, or_assoc]

/-- R71 (d): with equal LUT entries only the alpha test is left. -/
theorem differs_iff_of_yuv_eq {p : Params} {c1 c2 : Word} (h : yuv p (rgbOf c1) = yuv p (rgbOf c2)) (e : EffThr) :
    differs p e c1 c2 = true ↔ e.a.toNat < (alphaOf p c1 - alphaOf p c2).natAbs := by
  simp only [differs_iff, h, absDiff_self, Nat.zero_mul, Nat.not_lt_zero, false_or]

/-- R71 (a). -/
theorem differs_self (p : Params) (e : EffThr) (c : Word) : differs p e c c = false := by
  rw [Bool.eq_false_iff, Ne, differs_iff_of_yuv_eq rfl, Int.sub_self]
  exact Nat.not_lt_zero _

/-- R71 (b). -/
theorem differs_comm (p : Params) (e : EffThr) (c1 c2 : Word) : differs p e c1 c2 = differs p e c2 c1 := by
  have halpha : (alphaOf p c1 - alphaOf p c2).natAbs = (alphaOf p c2 - alphaOf p c1).natAbs := by
    rw [← Int.natAbs_neg, Int.neg_sub]
  rw [Bool.eq_iff_iff, differs_iff, differs_iff, halpha, absDiff_comm (yByte _).toNat, absDiff_comm (uByte _).toNat,
    absDiff_comm (vByte _).toNat]

/-- R71 (c): lowering the thresholds keeps each channel test that holds. -/
theorem differs_mono {p : Params} {e e' : EffThr} {c1 c2 : Word} (hy : e.y ≤ e'.y) (hu : e.u ≤ e'.u) (hv : e.v ≤ e'.v)
    (ha : e.a ≤ e'.a) (h : differs p e' c1 c2 = true) : differs p e c1 c2 = true := by
  rw [differs_iff] at h ⊢
  exact h.imp hy.trans_lt (.imp hu.trans_lt (.imp hv.trans_lt ha.trans_lt))

/-- R71 (e): a colour counts through its LUT entry and its alpha byte. -/
theorem differs_congr {p : Params} {c1 c1' c2 c2' : Word} (h1 : yuv p (rgbOf c1) = yuv p (rgbOf c1'))
    (h2 : yuv p (rgbOf c2) = yuv p (rgbOf c2')) (ha1 : alphaByte c1 = alphaByte c1') (ha2 : alphaByte c2 = alphaByte c2')
    (e : EffThr) : differs p e c1 c2 = differs p e c1' c2' := by
  rw [Bool.eq_iff_iff, differs_iff, differs_iff, h1, h2, alphaOf_congr ha1, alphaOf_congr ha2]

/-- Settles O37. -/
theorem differsHasTheStatedProperties : Obligations.DiffersHasTheStatedProperties := by
  intro p e
  refine ⟨differs_self p e, differs_comm p e, fun _ _ _ => differs_mono, fun c1 c2 hrgb h => ?_,
    fun _ _ _ _ h1 h2 ha1 ha2 => differs_congr h1 h2 ha1 ha2 e⟩
  have hyuv : yuv p (rgbOf c1) = yuv p (rgbOf c2) := congrArg (yuv p) hrgb
  exact (differs_iff_of_yuv_eq hyuv e).mp h

/-! ## The latched thresholds (R27, R70) -/

theorem effOf_y_toNat (s : State) : (effOf s).y.toNat = s.thrY.toNat * 2 ^ 16 := by
  rw [effOf, toNat_append_add, BitVec.ofNat_eq_ofNat, BitVec.toNat_ofNat, Nat.zero_mod, Nat.add_zero]

theorem effOf_u_toNat (s : State) : (effOf s).u.toNat = s.thrU.toNat * 2 ^ 8 := by
  rw [effOf, toNat_append_add, toNat_append_add]
  simp

/-- R70: pre-shifting thresholds and channels by the same amount changes no test. -/
theorem differs_effOf_iff (s : State) (c1 c2 : Word) :
    differs s.cfg (effOf s) c1 c2 = true ↔
      s.thrY.toNat < absDiff (yByte (yuv s.cfg (rgbOf c1))).toNat (yByte (yuv s.cfg (rgbOf c2))).toNat ∨
      s.thrU.toNat < absDiff (uByte (yuv s.cfg (rgbOf c1))).toNat (uByte (yuv s.cfg (rgbOf c2))).toNat ∨
      s.thrV.toNat < absDiff (vByte (yuv s.cfg (rgbOf c1))).toNat (vByte (yuv s.cfg (rgbOf c2))).toNat ∨
      s.thrA.toNat < (alphaOf s.cfg c1 - alphaOf s.cfg c2).natAbs := by
  rw [differs_iff, effOf_y_toNat, effOf_u_toNat, Nat.mul_lt_mul_right (by decide), Nat.mul_lt_mul_right (by decide)]
  rfl

/-- Settles O36. -/
theorem differsIsTheUnshiftedComparison : Obligations.DiffersIsTheUnshiftedComparison := by
  rintro s c1 c2 _ _ rfl rfl
  simp only [← yByte_toNat, ← uByte_toNat, ← vByte_toNat]
  exact ⟨differs_effOf_iff s c1 c2, absDiff_byte_le _ _, absDiff_byte_le _ _, absDiff_byte_le _ _,
    alphaOf_sub_natAbs_le s.cfg c1 c2⟩

/-! ## The edge pattern (R73, R74) -/

theorem getLsbD_setBit {n j : Nat} (hj : j < n) (x : BitVec n) (i : Nat) :
    (x ||| 1#n <<< i).getLsbD j = (x.getLsbD j || decide (j = i)) := by
  have hbit : (1#n <<< i).getLsbD j = decide (j = i) := by
    rw [← BitVec.twoPow_eq, BitVec.getLsbD_twoPow, Bool.eq_iff_iff]
    simp only [Bool.and_eq_true, decide_eq_true_eq]
    omega
  rw [BitVec.getLsbD_or, hbit]

/-- A loop that sets bit i for each i of a list where f holds, read at one bit. -/
theorem getLsbD_foldl_setBit {n j : Nat} (hj : j < n) (f : Nat → Bool) (is : List Nat) (x : BitVec n) :
    (is.foldl (fun pattern i => if f i then pattern ||| (1#n <<< i) else pattern) x).getLsbD j =
      (x.getLsbD j || (decide (j ∈ is) && f j)) := by
  induction is generalizing x with
  | nil => simp
  | cons i is ih =>
    have hset : (if f i then x ||| (1#n <<< i) else x).getLsbD j = (x.getLsbD j || (decide (j = i) && f i)) := by
      cases f i <;> simp [getLsbD_setBit hj]
    rw [List.foldl_cons, ih, hset]
    by_cases hi : j = i
    · subst hi
      cases f j <;> simp
    · simp [hi]

theorem classify_getLsbD (p : Params) (e : EffThr) (w : Nbhd) {j : Nat} (hj : j < 8) :
    (classify p e w).getLsbD j = patternBit p e w j := by
  rw [classify, getLsbD_foldl_setBit hj]
  simp [hj]

/-- R74: the skip of a neighbour bit-identical to the centre changes nothing, as a colour never differs from itself. -/
theorem patternBit_eq_differs (p : Params) (e : EffThr) (w : Nbhd) (j : Nat) :
    patternBit p e w j = differs p e (nbAt w 4) (nbAt w (ordIndex j)) := by
  unfold patternBit
  split
  · next hsame => rw [hsame, differs_self]
  · rfl

theorem nbAt_fin (w : Nbhd) (i : Fin 9) : nbAt w i.val = w[i] := by simp [nbAt]

/-- ORD as R73 prints it. -/
theorem ordIndex_eq : ∀ j : Fin 8, ordIndex j.val = ((#v[0, 1, 2, 3, 5, 6, 7, 8] : Vector (Fin 9) 8)[j]).val := by
  decide

/-- Settles O39. -/
theorem patternBitIsDiffersOfItsNeighbour : Obligations.PatternBitIsDiffersOfItsNeighbour := by
  intro p e w j
  rw [classify_getLsbD p e w j.isLt, patternBit_eq_differs, ordIndex_eq, nbAt_fin]
  exact congrArg (differs p e · _) (nbAt_fin w 4)

/-! ## The commands DIFFERS and CLASSIFY (R72, R75) -/

theorem setWidth_ofBool (b : Bool) : (BitVec.ofBool b).setWidth 32 = if b then (1 : Word) else 0 := by
  cases b <;> rfl

/-- Settles O38. -/
theorem differsWritesOneOrZero : Obligations.DiffersWritesOneOrZero := by
  intro s hf hl
  rw [← setWidth_ofBool]
  exact lutCommand_of_ready s _ hf hl

/-- Settles O40. -/
theorem classifyWritesThePattern : Obligations.ClassifyWritesThePattern := by
  intro s hf hl
  have hzext : (classify s.cfg (effOf s) s.nb).setWidth 32 = (0 : BitVec 24) ++ classify s.cfg (effOf s) s.nb :=
    BitVec.setWidth_eq_append (by decide)
  rw [← hzext]
  exact lutCommand_of_ready s _ hf hl

end Sys2Proof.Machine

/-!
PROOFS. The mixer (R76 to R91): a colour as its four bytes, what a lane of R77 holds of them and which byte of the
recombined word it gives, so the closed form of R78; then the identity of R79 and the ten MIX commands.
-/

namespace Sys2Proof.Machine

/-! ## A colour as its four bytes (R13) -/

/-- The packed colour with channels a, r, g and b. -/
def packed (a r g b : BitVec 8) : Word := a ++ r ++ g ++ b

theorem packed_bytes (c : Word) : packed (alphaByte c) (redByte c) (greenByte c) (blueByte c) = c := lanes_append c

theorem packed_and (a r g b a' r' g' b' : BitVec 8) :
    packed a r g b &&& packed a' r' g' b' = packed (a &&& a') (r &&& r') (g &&& g') (b &&& b') := by
  change (a ++ r ++ g ++ b) &&& (a' ++ r' ++ g' ++ b') = (a &&& a') ++ (r &&& r') ++ (g &&& g') ++ (b &&& b')
  simp only [BitVec.and_append]

theorem packed_or (a r g b a' r' g' b' : BitVec 8) :
    packed a r g b ||| packed a' r' g' b' = packed (a ||| a') (r ||| r') (g ||| g') (b ||| b') := by
  change (a ++ r ++ g ++ b) ||| (a' ++ r' ++ g' ++ b') = (a ||| a') ++ (r ||| r') ++ (g ||| g') ++ (b ||| b')
  simp only [BitVec.or_append]

theorem packed_toNat (a r g b : BitVec 8) :
    (packed a r g b).toNat = ((a.toNat * 2 ^ 8 + r.toNat) * 2 ^ 8 + g.toNat) * 2 ^ 8 + b.toNat := by
  rw [packed, toNat_append_add, toNat_append_add, toNat_append_add]

/-- The byte at bit k of a word, as a number. -/
theorem toNat_byte (c : Word) (k : Nat) : (c.extractLsb' k 8).toNat = c.toNat / 2 ^ k % 256 := by
  rw [BitVec.extractLsb'_toNat, Nat.shiftRight_eq_div_pow]

/-- A number's bits k to k + 7 are the low byte of its quotient by 2 ^ k. -/
theorem byte_ofNat (n k : Nat) (hk : k ≤ 24) : (BitVec.ofNat 32 n).extractLsb' k 8 = BitVec.ofNat 8 (n / 2 ^ k) := by
  have hsplit : 2 ^ 32 = 2 ^ k * (256 * 2 ^ (24 - k)) := by
    rw [show (256 : Nat) = 2 ^ 8 from rfl, ← Nat.pow_add, ← Nat.pow_add]
    congr 1
    omega
  apply BitVec.eq_of_toNat_eq
  rw [toNat_byte, BitVec.toNat_ofNat, BitVec.toNat_ofNat, hsplit, Nat.mod_mul_right_div_self, Nat.mod_mul_right_mod]

theorem alphaByte_ofInt (z : Int) : alphaByte (BitVec.ofInt 32 z) = BitVec.ofInt 8 (z / 2 ^ 24) := by
  apply BitVec.eq_of_toNat_eq
  rw [alphaByte, toNat_byte, BitVec.toNat_ofInt, BitVec.toNat_ofInt]
  omega

/-! ## The lanes (R77) -/

theorem and_packed (c : Word) (a r g b : BitVec 8) :
    c &&& packed a r g b = packed (alphaByte c &&& a) (redByte c &&& r) (greenByte c &&& g) (blueByte c &&& b) := by
  conv_lhs => rw [← packed_bytes c, packed_and]

theorem and_greenMask (c : Word) : c &&& greenMask = packed 0#8 0#8 (greenByte c) 0#8 := by
  rw [show greenMask = packed 0#8 0#8 (BitVec.allOnes 8) 0#8 from rfl, and_packed]
  simp only [BitVec.and_zero, BitVec.and_allOnes]

theorem and_redBlueMask (c : Word) : c &&& redBlueMask = packed 0#8 (redByte c) 0#8 (blueByte c) := by
  rw [show redBlueMask = packed 0#8 (BitVec.allOnes 8) 0#8 (BitVec.allOnes 8) from rfl, and_packed]
  simp only [BitVec.and_zero, BitVec.and_allOnes]

theorem and_alphaMask (c : Word) : c &&& alphaMask = packed (alphaByte c) 0#8 0#8 0#8 := by
  rw [show alphaMask = packed (BitVec.allOnes 8) 0#8 0#8 0#8 from rfl, and_packed]
  simp only [BitVec.and_zero, BitVec.and_allOnes]

/-- The recombination of R77 takes each byte from its own lane. -/
theorem lanes_recombine (g rb a : Word) :
    (g &&& greenMask) ||| (rb &&& redBlueMask) ||| (a &&& alphaMask) =
      packed (alphaByte a) (redByte rb) (greenByte g) (blueByte rb) := by
  rw [and_greenMask, and_redBlueMask, and_alphaMask, packed_or, packed_or]
  simp only [BitVec.or_zero, BitVec.zero_or]

theorem laneOf_greenMask (c : Word) : laneOf c greenMask = 2 ^ 8 * (greenByte c).toNat := by
  rw [laneOf, and_greenMask, packed_toNat, BitVec.toNat_zero]
  omega

theorem laneOf_redBlueMask (c : Word) : laneOf c redBlueMask = 2 ^ 16 * (redByte c).toNat + (blueByte c).toNat := by
  rw [laneOf, and_redBlueMask, packed_toNat, BitVec.toNat_zero]
  omega

theorem packed_alpha_toNat (a : BitVec 8) : (packed a 0#8 0#8 0#8).toNat = 2 ^ 24 * a.toNat := by
  rw [packed_toNat, BitVec.toNat_zero]
  omega

theorem packed_alpha_toInt (a : BitVec 8) : (packed a 0#8 0#8 0#8).toInt = 2 ^ 24 * a.toInt := by
  change (a ++ 0#8 ++ 0#8 ++ 0#8).toInt = _
  simp only [BitVec.toInt_append_zero]
  omega

/-- The alpha lane keeps every bit through a shift by at most 24, under either reading. -/
theorem alphaLane_eq (p : Params) (c : Word) {s : Nat} (hs : s ≤ 24) :
    alphaLane p c s = 2 ^ (24 - s) * alphaOf p c := by
  have hpow : (2 : Int) ^ 24 = 2 ^ s * 2 ^ (24 - s) := by rw [← Int.pow_add, Nat.add_sub_cancel' hs]
  have hshift (a : Int) : 2 ^ 24 * a / 2 ^ s = 2 ^ (24 - s) * a := by
    rw [hpow, Int.mul_assoc, Int.mul_ediv_cancel_left _ (by positivity)]
  unfold alphaLane alphaOf
  rw [and_alphaMask]
  cases p.alphaShift with
  | arith =>
    dsimp only
    rw [BitVec.toInt_sshiftRight, packed_alpha_toInt, Int.shiftRight_eq_div_pow, ← hshift]
    norm_cast
  | logical =>
    dsimp only
    rw [BitVec.toNat_ushiftRight, packed_alpha_toNat, Nat.shiftRight_eq_div_pow, ← hshift]
    norm_cast

/-! ## The channels (R78) -/

/-- A weighted sum of bytes whose weights sum to at most w is at most 255 * w. -/
theorem weightedSum_le {w1 w2 w3 w : Nat} (hw : w1 + w2 + w3 ≤ w) (x1 x2 x3 : BitVec 8) :
    w1 * x1.toNat + w2 * x2.toNat + w3 * x3.toNat ≤ 255 * w :=
  calc w1 * x1.toNat + w2 * x2.toNat + w3 * x3.toNat
      ≤ w1 * 255 + w2 * 255 + w3 * 255 := by gcongr <;> omega
    _ ≤ 255 * w := by omega

theorem closedMix_eq_packed (p : Params) (w1 w2 w3 sh : Nat) (c1 c2 c3 : Word) :
    closedMix p w1 w2 w3 sh c1 c2 c3 =
      packed (closedAlpha p w1 w2 w3 sh c1 c2 c3) (closedChannel w1 w2 w3 sh (redByte c1) (redByte c2) (redByte c3))
        (closedChannel w1 w2 w3 sh (greenByte c1) (greenByte c2) (greenByte c3))
        (closedChannel w1 w2 w3 sh (blueByte c1) (blueByte c2) (blueByte c3)) := rfl

/-- A lane at bit k, shifted right by s, holds the lane's own quotient at bit k. -/
theorem mul_div_div (k s g : Nat) : 2 ^ k * g / 2 ^ s / 2 ^ k = g / 2 ^ s := by
  rw [Nat.div_right_comm, Nat.mul_div_cancel_left _ (by positivity)]

/-- The red half of the combined lane: the blue sum below it does not reach bit 16. -/
theorem redBlue_div_high {s r b : Nat} (hb : b < 2 ^ 16) : (2 ^ 16 * r + b) / 2 ^ s / 2 ^ 16 = r / 2 ^ s := by
  rw [Nat.div_right_comm, Nat.mul_add_div (by decide), Nat.div_eq_of_lt hb, Nat.add_zero]

/-- The blue half of the combined lane: the bits red loses to the shift stay above bit 7. -/
theorem redBlue_div_low {s : Nat} (hs : s ≤ 8) (r b : Nat) :
    BitVec.ofNat 8 ((2 ^ 16 * r + b) / 2 ^ s) = BitVec.ofNat 8 (b / 2 ^ s) := by
  have hpow : 2 ^ 16 * r = 2 ^ s * (2 ^ 8 * (2 ^ (8 - s) * r)) := by
    rw [← Nat.mul_assoc, ← Nat.mul_assoc, ← Nat.pow_add, ← Nat.pow_add]
    congr 2
    omega
  rw [hpow, Nat.mul_add_div (by positivity)]
  apply BitVec.eq_of_toNat_eq
  rw [BitVec.toNat_ofNat, BitVec.toNat_ofNat, Nat.mul_add_mod]

/-- The combined lane's weighted sum is red's at bit 16 over blue's. -/
theorem redBlue_laneSum (w1 w2 w3 : Nat) (c1 c2 c3 : Word) :
    w1 * laneOf c1 redBlueMask + w2 * laneOf c2 redBlueMask + w3 * laneOf c3 redBlueMask =
      2 ^ 16 * (w1 * (redByte c1).toNat + w2 * (redByte c2).toNat + w3 * (redByte c3).toNat) +
        (w1 * (blueByte c1).toNat + w2 * (blueByte c2).toNat + w3 * (blueByte c3).toNat) := by
  simp only [laneOf_redBlueMask]
  ring

theorem greenByte_mixed (w1 w2 w3 s : Nat) (c1 c2 c3 : Word) :
    greenByte (BitVec.ofNat 32
        ((w1 * laneOf c1 greenMask + w2 * laneOf c2 greenMask + w3 * laneOf c3 greenMask) / 2 ^ s)) =
      closedChannel w1 w2 w3 s (greenByte c1) (greenByte c2) (greenByte c3) := by
  have hsum : w1 * laneOf c1 greenMask + w2 * laneOf c2 greenMask + w3 * laneOf c3 greenMask =
      2 ^ 8 * (w1 * (greenByte c1).toNat + w2 * (greenByte c2).toNat + w3 * (greenByte c3).toNat) := by
    simp only [laneOf_greenMask]
    ring
  rw [hsum, greenByte, byte_ofNat _ _ (by decide), mul_div_div, closedChannel]

theorem redByte_mixed {w1 w2 w3 s : Nat} (hs : s ≤ 8) (hw : w1 + w2 + w3 ≤ 2 ^ s) (c1 c2 c3 : Word) :
    redByte (BitVec.ofNat 32
        ((w1 * laneOf c1 redBlueMask + w2 * laneOf c2 redBlueMask + w3 * laneOf c3 redBlueMask) / 2 ^ s)) =
      closedChannel w1 w2 w3 s (redByte c1) (redByte c2) (redByte c3) := by
  have hblue : w1 * (blueByte c1).toNat + w2 * (blueByte c2).toNat + w3 * (blueByte c3).toNat < 2 ^ 16 :=
    calc _ ≤ 255 * 2 ^ s := weightedSum_le hw _ _ _
      _ ≤ 255 * 2 ^ 8 := by gcongr; decide
      _ < 2 ^ 16 := by decide
  rw [redBlue_laneSum, redByte, byte_ofNat _ _ (by decide), redBlue_div_high hblue, closedChannel]

theorem blueByte_mixed (w1 w2 w3 : Nat) {s : Nat} (hs : s ≤ 8) (c1 c2 c3 : Word) :
    blueByte (BitVec.ofNat 32
        ((w1 * laneOf c1 redBlueMask + w2 * laneOf c2 redBlueMask + w3 * laneOf c3 redBlueMask) / 2 ^ s)) =
      closedChannel w1 w2 w3 s (blueByte c1) (blueByte c2) (blueByte c3) := by
  rw [redBlue_laneSum, blueByte, byte_ofNat _ _ (by decide), Nat.pow_zero, Nat.div_one, redBlue_div_low hs,
    closedChannel]

theorem alphaByte_mixed (p : Params) (w1 w2 w3 : Nat) {s : Nat} (hs : s ≤ 24) (c1 c2 c3 : Word) :
    alphaByte (BitVec.ofInt 32
        ((w1 : Int) * alphaLane p c1 s + (w2 : Int) * alphaLane p c2 s + (w3 : Int) * alphaLane p c3 s)) =
      closedAlpha p w1 w2 w3 s c1 c2 c3 := by
  have hsum : (w1 : Int) * alphaLane p c1 s + w2 * alphaLane p c2 s + w3 * alphaLane p c3 s =
      2 ^ (24 - s) * (w1 * alphaOf p c1 + w2 * alphaOf p c2 + w3 * alphaOf p c3) := by
    simp only [alphaLane_eq p _ hs]
    ring
  have hpow : (2 : Int) ^ 24 = 2 ^ (24 - s) * 2 ^ s := by rw [← Int.pow_add, Nat.sub_add_cancel hs]
  rw [hsum, alphaByte_ofInt, hpow, Int.mul_ediv_mul_of_pos _ _ (by positivity), closedAlpha]
  norm_cast

/-- R78 for weights that sum to at most 2 ^ s: blue's sum stays below red's half of their lane. -/
theorem mixLanes_eq_closedMix (p : Params) {w1 w2 w3 s : Nat} (hs : s ≤ 8) (hw : w1 + w2 + w3 ≤ 2 ^ s)
    (c1 c2 c3 : Word) : mixLanes p (w1, w2, w3) s c1 c2 c3 = closedMix p w1 w2 w3 s c1 c2 c3 := by
  simp only [mixLanes]
  rw [lanes_recombine, alphaByte_mixed p w1 w2 w3 (by omega), redByte_mixed hs hw, greenByte_mixed,
    blueByte_mixed w1 w2 w3 hs, closedMix_eq_packed]

/-! ## The weights (R76, R87) -/

theorem mixShift_le (f : MixFn) : mixShift f ≤ 8 := by cases f <;> decide

theorem weights_m421_of_w521 {p : Params} (hp : p.f5Weights = .w521) : (5, 2, 1) = weights p .m421 := by
  rw [weights, hp]

theorem weights_m421_of_w421 {p : Params} (hp : p.f5Weights = .w421) : (4, 2, 1) = weights p .m421 := by
  rw [weights, hp]

/-- The weights of every function sum to its divisor, but for 4:2:1. -/
theorem weights_sum {p : Params} {f : MixFn} (h : takesTwo f = true ∨ p.f5Weights = .w521) :
    (weights p f).1 + (weights p f).2.1 + (weights p f).2.2 = 2 ^ mixShift f := by
  cases f with
  | m421 =>
    have hp : p.f5Weights = .w521 := h.resolve_left (by decide)
    rw [← weights_m421_of_w521 hp]
    rfl
  | _ => rfl

theorem weights_sum_le (p : Params) (f : MixFn) :
    (weights p f).1 + (weights p f).2.1 + (weights p f).2.2 ≤ 2 ^ mixShift f := by
  cases hp : p.f5Weights with
  | w521 => exact (weights_sum (.inr hp)).le
  | w421 =>
    cases f with
    | m421 =>
      rw [← weights_m421_of_w421 hp]
      decide
    | _ => exact Nat.le_refl _

theorem weights_third_of_takesTwo {f : MixFn} (hf : takesTwo f = true) (p : Params) : (weights p f).2.2 = 0 := by
  cases f with
  | m211 | m277 | m421 | m611 | m233 | m1411 => cases hf
  | m31 | m71 | m53 | m11 => rfl

/-! ## Equal inputs (R79) -/

theorem closedChannel_self {w1 w2 w3 sh : Nat} (hw : w1 + w2 + w3 = 2 ^ sh) (x : BitVec 8) :
    closedChannel w1 w2 w3 sh x x x = x := by
  rw [closedChannel, ← Nat.add_mul, ← Nat.add_mul, hw, Nat.mul_div_cancel_left _ (by positivity)]
  simp

theorem ofInt_alphaOf (p : Params) (c : Word) : BitVec.ofInt 8 (alphaOf p c) = alphaByte c := by
  unfold alphaOf
  cases p.alphaShift <;> simp

theorem closedAlpha_self (p : Params) {w1 w2 w3 sh : Nat} (hw : w1 + w2 + w3 = 2 ^ sh) (c : Word) :
    closedAlpha p w1 w2 w3 sh c c c = alphaByte c := by
  have hw' : (w1 : Int) + w2 + w3 = ((2 ^ sh : Nat) : Int) := by exact_mod_cast hw
  rw [closedAlpha, ← Int.add_mul, ← Int.add_mul, hw', Int.mul_ediv_cancel_left _ (by positivity), ofInt_alphaOf]

theorem closedMix_self (p : Params) {w1 w2 w3 sh : Nat} (hw : w1 + w2 + w3 = 2 ^ sh) (c : Word) :
    closedMix p w1 w2 w3 sh c c c = c := by
  rw [closedMix_eq_packed, closedAlpha_self p hw, closedChannel_self hw, closedChannel_self hw, closedChannel_self hw,
    packed_bytes]

/-- An input of weight 0 does not count. -/
theorem closedMix_third (p : Params) (w1 w2 sh : Nat) (c1 c2 c3 c3' : Word) :
    closedMix p w1 w2 0 sh c1 c2 c3 = closedMix p w1 w2 0 sh c1 c2 c3' := by
  simp [closedMix, closedAlpha, closedChannel]

/-! ## mix_f as its closed form (R78, R79) -/

section
variable {p : Params} {f : MixFn} {w1 w2 w3 : Nat} (hw : (w1, w2, w3) = weights p f)
include hw

theorem mixLanes_weights (c1 c2 c3 : Word) :
    mixLanes p (weights p f) (mixShift f) c1 c2 c3 = closedMix p w1 w2 w3 (mixShift f) c1 c2 c3 := by
  have hsum := weights_sum_le p f
  rw [← hw] at hsum ⊢
  exact mixLanes_eq_closedMix p (mixShift_le f) hsum c1 c2 c3

/-- The third operand of a 2-input function does not count. -/
theorem closedMix_third_of_takesTwo (hf : takesTwo f = true) (c1 c2 c3 c3' : Word) :
    closedMix p w1 w2 w3 (mixShift f) c1 c2 c3 = closedMix p w1 w2 w3 (mixShift f) c1 c2 c3' := by
  have h3 := weights_third_of_takesTwo hf p
  rw [← hw] at h3
  subst h3
  exact closedMix_third p w1 w2 _ c1 c2 c3 c3'

theorem closedMix_weights_self (h : takesTwo f = true ∨ p.f5Weights = .w521) (c : Word) :
    closedMix p w1 w2 w3 (mixShift f) c c c = c := by
  have hsum := weights_sum h
  rw [← hw] at hsum
  exact closedMix_self p hsum c

/-- The shortcut of R77 gives what the closed form gives. -/
theorem closedMix_shortcut (hf : takesTwo f = true) (c c3 : Word) :
    closedMix p w1 w2 w3 (mixShift f) c c c3 = c :=
  (closedMix_third_of_takesTwo hw hf c c c3 c).trans (closedMix_weights_self hw (.inl hf) c)

theorem mix_eq_closedMix (c1 c2 c3 : Word) : mix p f c1 c2 c3 = closedMix p w1 w2 w3 (mixShift f) c1 c2 c3 := by
  cases hf : takesTwo f with
  | false => rw [mix, hf, if_neg (by decide), mixThree, mixLanes_weights hw]
  | true =>
    rw [mix, hf, if_pos rfl, mixTwo]
    split
    · next heq => rw [← heq, closedMix_shortcut hw hf]
    · rw [mixLanes_weights hw, closedMix_third_of_takesTwo hw hf]

theorem quotient_le (x1 x2 x3 : BitVec 8) :
    (w1 * x1.toNat + w2 * x2.toNat + w3 * x3.toNat) / 2 ^ mixShift f ≤ 255 := by
  have hsum := weights_sum_le p f
  rw [← hw] at hsum
  exact Nat.div_le_of_le_mul (Nat.mul_comm 255 _ ▸ weightedSum_le hsum x1 x2 x3)

end

/-- Settles O41. -/
theorem laneFormEqualsClosedForm : Obligations.LaneFormEqualsClosedForm :=
  fun _ _ _ _ _ hw => ⟨mix_eq_closedMix hw, closedMix_shortcut hw, quotient_le hw⟩

/-- 4:2:1 over 8 takes 0x80 to 0x70 and, under ARITH, the alpha -1 to -1. -/
theorem mix421_grey_of_w421 {p : Params} (hw : p.f5Weights = .w421) (ha : p.alphaShift = .arith) :
    mix p .m421 0xFF808080 0xFF808080 0xFF808080 = 0xFF707070 := by
  have halpha : alphaOf p 0xFF808080 = -1 := by
    rw [alphaOf, ha]
    rfl
  rw [mix_eq_closedMix (weights_m421_of_w421 hw), closedMix, closedAlpha, halpha]
  decide

/-- Settles O44. -/
theorem mixerKeepsEqualInputs : Obligations.MixerKeepsEqualInputs := by
  intro p f c
  refine ⟨fun hp => ?_, fun hf => ⟨?_, ?_⟩, mix421_grey_of_w421⟩
  · rw [mix_eq_closedMix rfl, closedMix_weights_self rfl (.inr hp)]
  · rw [mix_eq_closedMix rfl, closedMix_weights_self rfl (.inl hf)]
  · rw [mixLanes_weights rfl, closedMix_shortcut rfl hf]

/-! ## The MIX commands (R81 to R91) -/

theorem mixCommand_of_no_fault {f : MixFn} {w1 w2 w3 : Nat} {s : State} (hf : s.fault = false)
    (hw : (w1, w2, w3) = weights s.cfg f) :
    mixCommand f s = .next { s with result := closedMix s.cfg w1 w2 w3 (mixShift f) s.opa s.opb s.opc } := by
  rw [mixCommand, command_of_no_fault _ _ hf, mix_eq_closedMix hw]

/-- A 2-input command does not read OPC. -/
theorem mixCommand_of_third_zero {f : MixFn} {w1 w2 : Nat} {s : State} (hf : s.fault = false)
    (hw : (w1, w2, 0) = weights s.cfg f) :
    mixCommand f s = .next { s with result := closedMix s.cfg w1 w2 0 (mixShift f) s.opa s.opb 0 } := by
  rw [mixCommand_of_no_fault hf hw, closedMix_third]

/-- Settles O42. -/
theorem twoInputMixCommandsAverage : Obligations.TwoInputMixCommandsAverage :=
  fun _ hf => ⟨mixCommand_of_third_zero hf rfl, mixCommand_of_third_zero hf rfl, mixCommand_of_third_zero hf rfl,
    mixCommand_of_third_zero hf rfl⟩

/-- Settles O43. -/
theorem threeInputMixCommandsAverage : Obligations.ThreeInputMixCommandsAverage :=
  fun _ hf => ⟨mixCommand_of_no_fault hf rfl, mixCommand_of_no_fault hf rfl,
    fun h521 => mixCommand_of_no_fault hf (weights_m421_of_w521 h521),
    fun h421 => mixCommand_of_no_fault hf (weights_m421_of_w421 h421),
    mixCommand_of_no_fault hf rfl, mixCommand_of_no_fault hf rfl, mixCommand_of_no_fault hf rfl⟩

end Sys2Proof.Machine

/-!
PROOFS. The resolver (R92 to R99): a single recipe as its closed form, a single entry as the recipe it selects, DISPATCH and
PIXEL as the outputs of one pattern, DISPATCH as its pattern's entries one after another, and uniform neighbourhoods.
-/

namespace Sys2Proof.Machine

/-! ## Neighbourhood indices (R32, R56) -/

theorem nbAt_of_lt (w : Nbhd) {i : Nat} (h : i < 9) : nbAt w i = w[i] := nbAt_fin w ⟨i, h⟩

theorem indexOk_iff (i : BitVec 4) : indexOk i = true ↔ i.toNat < 9 := by
  rw [indexOk, decide_eq_true_eq, Nat.lt_succ_iff]

/-- Every index of a well-formed recipe is one of a neighbourhood, an unused one being 0. -/
theorem recipe_indices_lt {r : BitVec 16} (h : recipeWf r = true) :
    (recipeI1 r).toNat < 9 ∧ (recipeI2 r).toNat < 9 ∧ (recipeI3 r).toNat < 9 := by
  have hzero {i : BitVec 4} (hi : i = 0) : i.toNat < 9 := hi ▸ (by decide)
  unfold recipeWf at h
  split at h
  · simp only [Bool.and_eq_true, beq_iff_eq] at h
    obtain ⟨⟨h1, h2⟩, h3⟩ := h
    exact ⟨hzero h1, hzero h2, hzero h3⟩
  · simp only [Bool.and_eq_true, indexOk_iff] at h
    obtain ⟨⟨⟨-, h1⟩, h2⟩, h3⟩ := h
    refine ⟨h1, h2, ?_⟩
    split at h3
    · exact hzero (beq_iff_eq.mp h3)
    · exact (indexOk_iff _).mp h3

/-! ## Single recipes (R93) -/

theorem recipeStep_of_wf {r : BitVec 16} (h : recipeWf r = true) (s : State) :
    recipeStep r s = .next (putSub s (applyRecipe s.cfg r s.latch.w)) := if_pos h

theorem applyRecipe_of_kindFn {r : BitVec 16} {f : MixFn} (h : kindFn (recipeKind r) = some f) (p : Params) (w : Nbhd) :
    applyRecipe p r w = mix p f (nbAt w (recipeI1 r).toNat) (nbAt w (recipeI2 r).toNat) (nbAt w (recipeI3 r).toNat) := by
  rw [applyRecipe, h]

theorem applyRecipe_of_kindFn_none {r : BitVec 16} (h : kindFn (recipeKind r) = none) (p : Params) (w : Nbhd) :
    applyRecipe p r w = nbAt w 4 := by
  rw [applyRecipe, h]

/-- A recipe word of a mixer kind as the closed form of its function (R78). -/
theorem applyRecipe_recipeWord {k : BitVec 4} {f : MixFn} (hk : kindFn k = some f) {p : Params} {w1 w2 w3 : Nat}
    (hw : (w1, w2, w3) = weights p f) (i1 i2 i3 : BitVec 4) (w : Nbhd) :
    applyRecipe p (recipeWord k i1 i2 i3) w =
      closedMix p w1 w2 w3 (mixShift f) (nbAt w i1.toNat) (nbAt w i2.toNat) (nbAt w i3.toNat) := by
  rw [applyRecipe_of_kindFn (by rw [recipeKind_recipeWord, hk]), recipeI1_recipeWord, recipeI2_recipeWord,
    recipeI3_recipeWord, mix_eq_closedMix hw]

/-- Settles O50. -/
theorem copyRecipeGivesTheCentre : Obligations.CopyRecipeGivesTheCentre := by
  intro s
  have hcopy : applyRecipe s.cfg (recipeWord 0 0 0 0) s.latch.w = s.latch.w[4] :=
    (applyRecipe_of_kindFn_none rfl s.cfg s.latch.w).trans (nbAt_of_lt s.latch.w (by decide))
  exact (recipeStep_of_wf rfl s).trans (by rw [hcopy, putSub])

section
variable {s : State} (k : BitVec 4) (f : MixFn) {i1 i2 i3 : BitVec 4}

/-- A single 2-input recipe: its third weight is 0, so what stands for its third input does not count. -/
theorem recipeStep_two {w1 w2 : Nat} (htwo : kindTakesTwo k = true) (hk : kindFn k = some f)
    (hw : (w1, w2, 0) = weights s.cfg f) (hi1 : i1.toNat < 9) (hi2 : i2.toNat < 9) :
    recipeStep (recipeWord k i1 i2 0) s =
      .next (putSub s (closedMix s.cfg w1 w2 0 (mixShift f) s.latch.w[i1.toNat] s.latch.w[i2.toNat] 0)) := by
  have hwf : recipeWf (recipeWord k i1 i2 0) = true := by
    rw [recipeWf_recipeWord_two htwo, (indexOk_iff i1).mpr hi1, (indexOk_iff i2).mpr hi2, Bool.and_self]
  rw [recipeStep_of_wf hwf, applyRecipe_recipeWord hk hw, nbAt_of_lt _ hi1, nbAt_of_lt _ hi2, closedMix_third]

/-- A single 3-input recipe. -/
theorem recipeStep_three {w1 w2 w3 : Nat} (htwo : kindTakesTwo k = false) (hk : kindFn k = some f) (h10 : k.toNat ≤ 10)
    (hw : (w1, w2, w3) = weights s.cfg f) (hi1 : i1.toNat < 9) (hi2 : i2.toNat < 9) (hi3 : i3.toNat < 9) :
    recipeStep (recipeWord k i1 i2 i3) s =
      .next (putSub s (closedMix s.cfg w1 w2 w3 (mixShift f) s.latch.w[i1.toNat] s.latch.w[i2.toNat]
        s.latch.w[i3.toNat])) := by
  have h0 : k ≠ 0 := by
    rintro rfl
    cases hk
  have hwf : recipeWf (recipeWord k i1 i2 i3) = true := by
    rw [recipeWf_recipeWord_three htwo h0 h10, (indexOk_iff i1).mpr hi1, (indexOk_iff i2).mpr hi2,
      (indexOk_iff i3).mpr hi3, Bool.and_self, Bool.and_self]
  rw [recipeStep_of_wf hwf, applyRecipe_recipeWord hk hw, nbAt_of_lt _ hi1, nbAt_of_lt _ hi2, nbAt_of_lt _ hi3]

end

/-- Settles O51. -/
theorem twoInputRecipesMixTheirNeighbours : Obligations.TwoInputRecipesMixTheirNeighbours := by
  intro s i1 i2 h1 h2
  exact ⟨recipeStep_two 1 .m31 rfl rfl rfl h1 h2, recipeStep_two 3 .m71 rfl rfl rfl h1 h2,
    recipeStep_two 5 .m53 rfl rfl rfl h1 h2, recipeStep_two 10 .m11 rfl rfl rfl h1 h2⟩

/-- Settles O52. -/
theorem threeInputRecipesMixTheirNeighbours : Obligations.ThreeInputRecipesMixTheirNeighbours := by
  rintro s i1 i2 i3 _ _ _ h1 h2 h3 rfl rfl rfl
  exact ⟨recipeStep_three 2 .m211 rfl rfl (by decide) rfl h1 h2 h3,
    recipeStep_three 4 .m277 rfl rfl (by decide) rfl h1 h2 h3,
    fun h521 => recipeStep_three 6 .m421 rfl rfl (by decide) (weights_m421_of_w521 h521) h1 h2 h3,
    fun h421 => recipeStep_three 6 .m421 rfl rfl (by decide) (weights_m421_of_w421 h421) h1 h2 h3,
    recipeStep_three 7 .m611 rfl rfl (by decide) rfl h1 h2 h3,
    recipeStep_three 8 .m233 rfl rfl (by decide) rfl h1 h2 h3,
    recipeStep_three 9 .m1411 rfl rfl (by decide) rfl h1 h2 h3⟩

/-! ## Single entries (R94) -/

@[simp] theorem resolveEntry_plainEntry (p : Params) (t : EffThr) (r : BitVec 16) (w : Nbhd) :
    resolveEntry p t (plainEntry r) w = r := by
  simp [resolveEntry]

@[simp] theorem resolveEntry_condEntry (p : Params) (t : EffThr) (ta tb : BitVec 4) (rd rs : BitVec 16) (w : Nbhd) :
    resolveEntry p t (condEntry ta tb rd rs) w =
      if differs p t (nbAt w ta.toNat) (nbAt w tb.toNat) then rd else rs := by
  simp [resolveEntry]

/-- The colour an entry gives over the latched neighbourhood (R94, R95). -/
def entryColour (s : State) (e : BitVec 64) : Word :=
  applyRecipe s.cfg (resolveEntry s.cfg s.eff e s.latch.w) s.latch.w

/-- An entry whose test, if it has one, can read the LUT. -/
theorem entryStep_of_ready {e : BitVec 64} {s : State} (h : entryWf e = true)
    (hready : entryIsCond e = false ∨ s.lutValid = true) :
    entryStep e s = .next (nextSub (putSub s (entryColour s e))) := by
  have htest : (entryIsCond e && !s.lutValid) = false := by
    obtain hc | hl := hready
    · rw [hc, Bool.false_and]
    · rw [hl, Bool.not_true, Bool.and_false]
  rw [entryStep, if_pos h, htest]
  rfl

/-- A conditional entry without the LUT (R31; log 11). -/
theorem entryStep_of_not_ready {e : BitVec 64} {s : State} (h : entryWf e = true) (hc : entryIsCond e = true)
    (hl : s.lutValid = false) : entryStep e s = .next (raiseFault .lutNotReady s) := by
  rw [entryStep, if_pos h, hc, hl]
  rfl

/-- Settles O54. -/
theorem plainEntryAppliesItsRecipe : Obligations.PlainEntryAppliesItsRecipe := by
  intro s r hr
  have hstep := entryStep_of_ready (s := s) ((entryWf_plainEntry r).trans hr) (.inl (entryIsCond_plainEntry r))
  rwa [entryColour, resolveEntry_plainEntry] at hstep

/-- Settles O55. -/
theorem conditionalEntryTestsTwoNeighbours : Obligations.ConditionalEntryTestsTwoNeighbours := by
  intro s rd rs ta tb ha hb hrd hrs
  have hwf : entryWf (condEntry ta tb rd rs) = true := by
    rw [entryWf_condEntry, hrd, hrs, (indexOk_iff ta).mpr ha, (indexOk_iff tb).mpr hb]
    rfl
  refine ⟨fun hl => ?_, fun hl hf => ?_⟩
  · have hstep := entryStep_of_ready hwf (.inr hl)
    rwa [entryColour, resolveEntry_condEntry, nbAt_of_lt _ ha, nbAt_of_lt _ hb] at hstep
  · have hstep := entryStep_of_not_ready hwf (entryIsCond_condEntry ta tb rd rs) hl
    rwa [raiseFault_of_no_fault _ s hf] at hstep

/-! ## The commands DISPATCH and PIXEL (R98, R99) -/

theorem dispatchInto_getElem (p : Params) (t : EffThr) (tab : List (BitVec 64)) (n : Nat) (q : BitVec 8) (w : Nbhd)
    (old : Vector Word 16) (k : Fin 16) :
    (dispatchInto p t tab n q w old)[k] = if k.val < n * n then subPixel p t tab n q w k.val else old[k] := by
  simp [dispatchInto]

theorem exec_dispatch_of_ready (pat : BitVec 8) {s : State} (hf : s.fault = false) (hl : s.lutValid = true) :
    exec (.dispatch pat) s =
      .next { s with
        eff := effOf s
        out := dispatchInto s.cfg (effOf s) (table s) (factor s) pat s.nb s.out } :=
  lutCommand_of_ready s _ hf hl

theorem exec_pixel_of_ready {s : State} (hf : s.fault = false) (hl : s.lutValid = true) :
    exec .pixel s =
      .next { s with
        eff := effOf s
        result := (0 : BitVec 24) ++ classify s.cfg (effOf s) s.nb
        out := dispatchInto s.cfg (effOf s) (table s) (factor s) (classify s.cfg (effOf s) s.nb) s.nb s.out } := by
  have hzext : (classify s.cfg (effOf s) s.nb).setWidth 32 = (0 : BitVec 24) ++ classify s.cfg (effOf s) s.nb :=
    BitVec.setWidth_eq_append (by decide)
  rw [← hzext]
  exact lutCommand_of_ready s _ hf hl

/-- Settles O45. -/
theorem dispatchWritesItsOutputs : Obligations.DispatchWritesItsOutputs := by
  rintro pat s _ _ hf hl rfl rfl
  exact ⟨_, exec_dispatch_of_ready pat hf hl, rfl, dispatchInto_getElem _ _ (table s) (factor s) pat s.nb s.out⟩

/-- Settles O46. -/
theorem pixelWritesPatternAndOutputs : Obligations.PixelWritesPatternAndOutputs := by
  rintro s _ _ _ hf hl rfl rfl rfl
  exact ⟨_, exec_pixel_of_ready hf hl, rfl, dispatchInto_getElem _ _ (table s) (factor s) _ s.nb s.out⟩

/-- RESULT[7:0] of a zero-extended pattern is the pattern (R75, R99). -/
theorem extractLsb'_zero_append (pat : BitVec 8) : ((0 : BitVec 24) ++ pat).extractLsb' 0 8 = pat :=
  BitVec.extractLsb'_append_eq_right

/-- Settles O47, by whether the commands are ignored, meet no LUT, or run. -/
theorem pixelIsClassifyThenDispatch : Obligations.PixelIsClassifyThenDispatch := by
  intro s
  cases hf : s.fault with
  | true =>
    have hskip (run : Host.Outcome State Fault Refusal) : lutCommand s run = .next s := command_of_fault s _ hf
    exact ⟨s, hskip _, (hskip _).trans (hskip _).symm⟩
  | false =>
    cases hl : s.lutValid with
    | false =>
      have hraise (run : Host.Outcome State Fault Refusal) :
          lutCommand s run = .next (raiseFault .lutNotReady s) := lutCommand_of_not_ready s run hf hl
      exact ⟨_, hraise _, (command_of_fault _ _ (raiseFault_fault _ s)).trans (hraise _).symm⟩
    | true =>
      refine ⟨_, classifyWritesThePattern s hf hl, ?_⟩
      rw [extractLsb'_zero_append, exec_pixel_of_ready hf hl]
      exact exec_dispatch_of_ready _ hf hl

/-! ## DISPATCH as its entries one after another (R95) -/

/-- A well-formed entry from the inputs is one turn of the resolver. -/
theorem runEntry_of_wf {e : BitVec 64} (h : entryWf e = true) (s : State) : runEntry e s = entryStep e s := by
  have hdecode : ∃ i, decodeEntry e = .ok i := by
    rw [decodeEntry, if_pos h]
    split <;> exact ⟨_, rfl⟩
  obtain ⟨i, hi⟩ := hdecode
  rw [runEntry, hi]
  exact exec_of_encode_entry (wf_encode_of_decodeEntry hi).2 s

/-- One entry more after a run that answers a next state. -/
theorem runEntries_concat {es : List (BitVec 64)} {s u : State} (h : runEntries es s = .next u) (e : BitVec 64) :
    runEntries (es ++ [e]) s = runEntry e u := by
  induction es generalizing s with
  | nil =>
    injection h with h
    rw [List.nil_append, runEntries, h]
    cases runEntry e u <;> rfl
  | cons d rest ih =>
    rw [runEntries] at h
    rw [List.cons_append, runEntries]
    cases hd : runEntry d s with
    | next t => rw [hd] at h; exact ih h
    | fault r => rw [hd] at h; cases h
    | refused r => rw [hd] at h; cases h

/-- After n turns from the latch of s: the latch alone has changed, its neighbourhood is the same, it stands at sub-pixel
n, and the sub-pixels before hold their colours. -/
structure ResolvedTo (s u : State) (colour : Nat → Word) (n : Nat) : Prop where
  frame : u = { s with latch := u.latch }
  nbhd : u.latch.w = s.latch.w
  sub : u.latch.sub = BitVec.ofNat 4 n
  out : ∀ k : Fin 16, k.val < n → u.latch.out[k] = colour k.val

namespace ResolvedTo
variable {s u : State} {colour : Nat → Word} {n : Nat}

theorem zero (h : s.latch.sub = 0) : ResolvedTo s s colour 0 where
  frame := rfl
  nbhd := rfl
  sub := h
  out := fun k hk => absurd hk (Nat.not_lt_zero k.val)

theorem succ (h : ResolvedTo s u colour n) (hn : n < 16) :
    ResolvedTo s (nextSub (putSub u (colour n))) colour (n + 1) where
  frame := by
    conv_lhs => rw [h.frame]
    rfl
  nbhd := h.nbhd
  sub := by
    rw [nextSub_latch_sub, putSub_latch_sub, h.sub]
    exact (BitVec.ofNat_add n 1).symm
  out := fun k hk => by
    have hsub : u.latch.sub.toNat = n := by rw [h.sub, BitVec.toNat_ofNat, Nat.mod_eq_of_lt hn]
    simp only [nextSub_latch_out, putSub_latch_out, Fin.getElem_fin, Vector.getElem_set, hsub]
    split
    · next heq => rw [heq]
    · next hne => exact h.out k (by omega)

/-- An entry's colour depends on nothing the turns change. -/
theorem entryColour_eq (h : ResolvedTo s u colour n) (e : BitVec 64) : entryColour u e = entryColour s e := by
  have hchip : u.chip = s.chip := by rw [h.frame]
  have heff : u.eff = s.eff := by rw [h.frame]
  rw [entryColour, entryColour, State.cfg, hchip, heff, h.nbhd]

theorem lutValid (h : ResolvedTo s u colour n) : u.lutValid = s.lutValid := by rw [h.frame]

end ResolvedTo

/-- Up to 16 well-formed entries in turn, from sub-pixel 0, leave each its colour. -/
theorem runEntries_range {entry : Nat → BitVec 64} {s : State} {n : Nat} (hn : n ≤ 16)
    (hwf : ∀ k < n, entryWf (entry k) = true) (hl : s.lutValid = true) (hsub : s.latch.sub = 0) :
    ∃ u, runEntries ((List.range n).map entry) s = .next u ∧ ResolvedTo s u (fun k => entryColour s (entry k)) n := by
  induction n with
  | zero => exact ⟨s, rfl, .zero hsub⟩
  | succ n ih =>
    obtain ⟨u, hrun, hu⟩ := ih (by omega) fun k hk => hwf k (by omega)
    have hturn : runEntry (entry n) u = .next (nextSub (putSub u (entryColour s (entry n)))) := by
      have hwfn := hwf n (by omega)
      rw [runEntry_of_wf hwfn, entryStep_of_ready hwfn (.inr (hu.lutValid.trans hl)), hu.entryColour_eq]
    rw [List.range_succ, List.map_append, List.map_singleton]
    exact ⟨_, (runEntries_concat hrun _).trans hturn, hu.succ (by omega)⟩

theorem factor_mul_factor_le (s : State) : factor s * factor s ≤ 16 := by
  unfold factor
  split <;> decide

/-- Settles O49, by induction on how many entries have run. -/
theorem dispatchEqualsItsEntriesInTurn : Obligations.DispatchEqualsItsEntriesInTurn := by
  intro pat s hf hl
  obtain ⟨u, hrun, hu⟩ := runEntries_range (entry := entryAt (table s) (factor s) pat)
    (s := { s with eff := effOf s, latch := { s.latch with w := s.nb, sub := 0 } })
    (factor_mul_factor_le s) (fun k hk => entryAt_wf (table_wf s) pat hk) hl rfl
  refine ⟨_, u, exec_dispatch_of_ready pat hf hl, hrun, hu.frame, fun k hk => ?_⟩
  rw [dispatchInto_getElem, if_pos hk, hu.out k hk]
  rfl

/-! ## Uniform neighbourhoods (R97) -/

section
variable {w : Nbhd} {c : Word} (hw : ∀ i : Fin 9, w[i] = c)
include hw

theorem nbAt_uniform {i : Nat} (hi : i < 9) : nbAt w i = c := (nbAt_fin w ⟨i, hi⟩).trans (hw ⟨i, hi⟩)

/-- Under W521 every well-formed recipe gives the colour: COPY the centre, a mixer what R79 says of equal inputs. -/
theorem applyRecipe_uniform {p : Params} {r : BitVec 16} (hp : p.f5Weights = .w521) (hr : recipeWf r = true) :
    applyRecipe p r w = c := by
  cases hf : kindFn (recipeKind r) with
  | none => rw [applyRecipe_of_kindFn_none hf, nbAt_uniform hw (by decide)]
  | some f =>
    obtain ⟨h1, h2, h3⟩ := recipe_indices_lt hr
    rw [applyRecipe_of_kindFn hf, nbAt_uniform hw h1, nbAt_uniform hw h2, nbAt_uniform hw h3, mix_eq_closedMix rfl,
      closedMix_weights_self rfl (.inr hp)]

/-- No neighbour differs from the centre. -/
theorem classify_uniform (p : Params) (e : EffThr) : classify p e w = 0 := by
  apply BitVec.eq_of_getLsbD_eq
  intro j hj
  have hord : ordIndex j < 9 := by
    unfold ordIndex
    split <;> omega
  rw [classify_getLsbD p e w hj, patternBit_eq_differs, nbAt_uniform hw (by decide), nbAt_uniform hw hord, differs_self]
  simp

end

/-- Settles O48. -/
theorem uniformNeighbourhoodStaysUniform : Obligations.UniformNeighbourhoodStaysUniform := by
  intro p e n tab q w c k hp htab hw hk
  have hrecipe := resolveEntry_wf (entryAt_wf htab q hk) p e w
  exact ⟨applyRecipe_uniform hw hp hrecipe, classify_uniform hw p e⟩

end Sys2Proof.Machine

/-!
PROOFS. The driver (R102 to R109): MAGNIFY's checks in their order, the neighbours of a source pixel inside the source
extent, the map from sub-pixels to destination words, and MAGNIFY's loops as a destination painted sub-pixel by sub-pixel.
-/

namespace Sys2Proof.Machine

/-! ## The checks (R103) -/

/-- MAGNIFY past the LUT check: the first check that fails raises its fault, else the image is run unless it is empty. -/
theorem exec_magnify_of_ready {s : State} (hf : s.fault = false) (hl : s.lutValid = true) :
    exec .magnify s =
      (magnifyCheck s).elim (.next (if sourceExtent s = 0 then s else magnifyImage (latchThr s)))
        fun c => .next { s with fault := true, faultCode := faultNumber c } := by
  have hrun : exec .magnify s = _ := lutCommand_of_ready s _ hf hl
  rw [hrun]
  cases magnifyCheck s with
  | none => exact (apply_ite Host.Outcome.next _ _ _).symm
  | some c => exact congrArg Host.Outcome.next (raiseFault_of_no_fault c s hf)

/-- Where a check fails, MAGNIFY raises its fault and changes nothing else. -/
theorem exec_magnify_of_check {s : State} {c : FaultCode} (hf : s.fault = false) (hl : s.lutValid = true)
    (hc : magnifyCheck s = some c) :
    exec .magnify s = .next { s with fault := true, faultCode := faultNumber c } := by
  rw [exec_magnify_of_ready hf hl, hc, Option.elim_some]

/-- An empty image is left as it is. -/
theorem exec_magnify_of_empty {s : State} (hf : s.fault = false) (hl : s.lutValid = true) (he : sourceExtent s = 0) :
    exec .magnify s = .next s := by
  have hc : magnifyCheck s = none := if_pos he
  rw [exec_magnify_of_ready hf hl, hc, Option.elim_none, if_pos he]

/-- Where the checks pass on an image that is not empty, MAGNIFY runs its loops. -/
theorem exec_magnify_of_passed {s : State} (hf : s.fault = false) (hl : s.lutValid = true) (hc : magnifyCheck s = none)
    (he : sourceExtent s ≠ 0) : exec .magnify s = .next (magnifyImage (latchThr s)) := by
  rw [exec_magnify_of_ready hf hl, hc, Option.elim_none, if_neg he]

/-- Settles O56, check by check in the order of R103. -/
theorem magnifyChecksInOrder : Obligations.MagnifyChecksInOrder := by
  rintro s n se de hf hn hse hde
  obtain rfl : n = factor s := hn
  obtain rfl : se = sourceExtent s := hse
  obtain rfl : de = destExtent s := hde
  by_cases hl : s.lutValid = false
  · rw [if_pos hl]
    exact (lutCommand_of_not_ready s _ hf hl).trans (congrArg _ (raiseFault_of_no_fault .lutNotReady s hf))
  rw [if_neg hl]
  rw [Bool.not_eq_false] at hl
  by_cases he : sourceExtent s = 0
  · rw [if_pos he]
    exact exec_magnify_of_empty hf hl he
  rw [if_neg he]
  by_cases hgeom : s.srcLen.toNat < sourceExtent s ∨ s.dstLen.toNat < destExtent s
  · rw [if_pos hgeom]
    exact exec_magnify_of_check hf hl (by rw [magnifyCheck, if_neg he, if_pos hgeom])
  rw [if_neg hgeom]
  by_cases hbus : s.srcBase.toNat + sourceExtent s > s.cfg.memWords ∨ s.dstBase.toNat + destExtent s > s.cfg.memWords
  · rw [if_pos hbus]
    exact exec_magnify_of_check hf hl (by rw [magnifyCheck, if_neg he, if_neg hgeom, if_pos hbus])
  rw [if_neg hbus]
  by_cases hover : s.srcBase.toNat < s.dstBase.toNat + destExtent s ∧ s.dstBase.toNat < s.srcBase.toNat + sourceExtent s
  · rw [if_pos hover]
    exact exec_magnify_of_check hf hl (by rw [magnifyCheck, if_neg he, if_neg hgeom, if_neg hbus, if_pos hover])
  · rw [if_neg hover]
    have hc : magnifyCheck s = none := by rw [magnifyCheck, if_neg he, if_neg hgeom, if_neg hbus, if_neg hover]
    exact ⟨_, exec_magnify_of_passed hf hl hc he, (magnifyImage_fault _).trans hf⟩

/-- The source and destination extents share no word (R103). -/
def ExtentsApart (s : State) : Prop :=
  s.srcBase.toNat + sourceExtent s ≤ s.dstBase.toNat ∨ s.dstBase.toNat + destExtent s ≤ s.srcBase.toNat

/-- Where the checks pass on an image that is not empty, the source and destination extents share no word. -/
theorem extentsApart_of_magnifyCheck {s : State} (hc : magnifyCheck s = none) (he : sourceExtent s ≠ 0) :
    ExtentsApart s := by
  by_contra h
  have hover : s.srcBase.toNat < s.dstBase.toNat + destExtent s ∧
      s.dstBase.toNat < s.srcBase.toNat + sourceExtent s := by
    unfold ExtentsApart at h
    omega
  rw [magnifyCheck, if_neg he, if_pos hover] at hc
  split_ifs at hc

/-! ## The neighbours of a source pixel (R104) -/

/-- The coordinate of a neighbour, as R104 writes col and row. -/
theorem neighbour_eq (wrap : Bool) {n c : Nat} (hc : c < n) (d : Int) :
    (neighbour wrap n c d : Int) =
      if 0 ≤ (c : Int) + d ∧ (c : Int) + d < n then (c : Int) + d else if wrap then ((c : Int) + d) % n else c := by
  unfold neighbour
  split
  next hin => exact Int.toNat_of_nonneg hin.1
  next =>
  split
  next => exact Int.toNat_of_nonneg (Int.emod_nonneg _ (by omega))
  next => rfl

/-- The coordinate of a neighbour is on the side. -/
theorem neighbour_lt (wrap : Bool) {n c : Nat} (hc : c < n) (d : Int) : neighbour wrap n c d < n := by
  have h := neighbour_eq wrap hc d
  have hmod := Int.emod_lt_of_pos ((c : Int) + d) (show (0 : Int) < n by omega)
  split at h
  · omega
  · split at h <;> omega

/-- The word of neighbour (x + dx, y + dy), from the start of the source. -/
def neighbourOffset (s : State) (x y : Nat) (dx dy : Int) : Nat :=
  neighbour (wrapY s) (heightOf s) y dy * widthOf s + neighbour (wrapX s) (widthOf s) x dx

theorem sourceAddr_eq (s : State) (x y : Nat) (dx dy : Int) :
    sourceAddr s x y dx dy = s.srcBase.toNat + neighbourOffset s x y dx dy := Nat.add_assoc ..

theorem neighbourOffset_lt {s : State} {x y : Nat} (hx : x < widthOf s) (hy : y < heightOf s) (dx dy : Int) :
    neighbourOffset s x y dx dy < sourceExtent s :=
  mul_add_lt_mul (neighbour_lt _ hx dx) (neighbour_lt _ hy dy)

/-- Index 3 * (dy + 1) + (dx + 1) of a neighbourhood is the word of neighbour (x + dx, y + dy). -/
theorem gather_getElem (s : State) (x y : Nat) (j : Fin 9) :
    (gather s x y)[j] =
      memRead s (s.srcBase.toNat + neighbourOffset s x y ((j.val % 3 : Nat) - 1) ((j.val / 3 : Nat) - 1)) := by
  rw [← sourceAddr_eq]
  fin_cases j <;> rfl

/-- Settles O58. -/
theorem gatherWrapsOrClampsInsideTheSource : Obligations.GatherWrapsOrClampsInsideTheSource := by
  rintro s x y j dx dy col row _ _ rfl rfl hx hy hdx hdy hcol hrow
  have hcol : col = neighbour (wrapX s) (widthOf s) x dx := hcol.trans (neighbour_eq _ hx dx).symm
  have hrow : row = neighbour (wrapY s) (heightOf s) y dy := hrow.trans (neighbour_eq _ hy dy).symm
  have hoff : row * s.width.toNat + col = (neighbourOffset s x y dx dy : Int) := by
    rw [hcol, hrow]
    exact (Int.natCast_add ..).symm
  rw [hoff, Int.toNat_natCast, gather_getElem, ← hdx, ← hdy]
  exact ⟨rfl, Int.natCast_nonneg _, by exact_mod_cast neighbourOffset_lt hx hy dx dy⟩

/-! ## The destination map (R106) -/

theorem factor_pos (s : State) : 0 < factor s := by
  unfold factor
  split <;> decide

theorem mul_add_div_of_lt {N r : Nat} (c : Nat) (hr : r < N) : (c * N + r) / N = c := by
  rw [Nat.mul_comm, Nat.mul_add_div (Nat.zero_lt_of_lt hr), Nat.div_eq_of_lt hr, Nat.add_zero]

/-- A position on a side of n * N is a position on a side of n and one of N. -/
theorem mul_add_inj {N c c' r r' : Nat} (hr : r < N) (hr' : r' < N) (h : c * N + r = c' * N + r') : c = c' ∧ r = r' :=
  ⟨by rw [← mul_add_div_of_lt c hr, h, mul_add_div_of_lt c' hr'],
    by rw [← Nat.mul_add_mod_of_lt (a := c) hr, h, Nat.mul_add_mod_of_lt hr']⟩

theorem dstBase_le_destAddr (s : State) (x y k : Nat) : s.dstBase.toNat ≤ destAddr s x y k := by
  unfold destAddr
  omega

/-- Two sub-pixels with one destination address are the same sub-pixel of the same source pixel. -/
theorem destAddr_inj {s : State} {x y k x' y' k' : Nat} (hx : x < widthOf s) (hk : k < factor s * factor s)
    (hx' : x' < widthOf s) (hk' : k' < factor s * factor s) (h : destAddr s x y k = destAddr s x' y' k') :
    x = x' ∧ y = y' ∧ k = k' := by
  have hN := factor_pos s
  have hsx := Nat.mod_lt k hN
  have hsx' := Nat.mod_lt k' hN
  have hcell : (y * factor s + k / factor s) * (widthOf s * factor s) + (x * factor s + k % factor s) =
      (y' * factor s + k' / factor s) * (widthOf s * factor s) + (x' * factor s + k' % factor s) := by
    unfold destAddr at h
    omega
  obtain ⟨hrow, hcol⟩ := mul_add_inj (mul_factor_add_lt hx hsx) (mul_factor_add_lt hx' hsx') hcell
  obtain ⟨hxx, hmod⟩ := mul_add_inj hsx hsx' hcol
  obtain ⟨hyy, hdiv⟩ := mul_add_inj (Nat.div_lt_of_lt_mul hk) (Nat.div_lt_of_lt_mul hk') hrow
  exact ⟨hxx, hyy, by rw [← Nat.div_add_mod' k (factor s), hdiv, hmod, Nat.div_add_mod']⟩

/-- Sub-pixel sy * N + sx is the one in column sx and row sy (R92). -/
theorem destAddr_subPixel {s : State} {sx : Nat} (hsx : sx < factor s) (x y sy : Nat) :
    destAddr s x y (sy * factor s + sx) =
      s.dstBase.toNat + (y * factor s + sy) * (widthOf s * factor s) + (x * factor s + sx) := by
  rw [destAddr, mul_add_div_of_lt sy hsx, Nat.mul_add_mod_of_lt hsx]

/-- Every word of the destination extent is that of a sub-pixel. -/
theorem exists_destAddr {s : State} {a : Nat} (hlo : s.dstBase.toNat ≤ a) (hhi : a < s.dstBase.toNat + destExtent s) :
    ∃ x y k, x < widthOf s ∧ y < heightOf s ∧ k < factor s * factor s ∧ destAddr s x y k = a := by
  obtain ⟨i, rfl⟩ := Nat.exists_eq_add_of_le hlo
  have hi : i < widthOf s * factor s * (heightOf s * factor s) := Nat.lt_of_add_lt_add_left hhi
  have hN := factor_pos s
  have hstride : 0 < widthOf s * factor s := Nat.pos_of_mul_pos_right (Nat.zero_lt_of_lt hi)
  have hX : i % (widthOf s * factor s) < widthOf s * factor s := Nat.mod_lt i hstride
  have hY : i / (widthOf s * factor s) < heightOf s * factor s := Nat.div_lt_of_lt_mul hi
  generalize hXe : i % (widthOf s * factor s) = X at hX
  generalize hYe : i / (widthOf s * factor s) = Y at hY
  refine ⟨X / factor s, Y / factor s, Y % factor s * factor s + X % factor s, Nat.div_lt_of_lt_mul ?_,
    Nat.div_lt_of_lt_mul ?_, mul_factor_add_lt (Nat.mod_lt Y hN) (Nat.mod_lt X hN), ?_⟩
  · rwa [Nat.mul_comm]
  · rwa [Nat.mul_comm]
  · rw [destAddr_subPixel (Nat.mod_lt X hN), Nat.div_add_mod', Nat.div_add_mod', ← hXe, ← hYe, Nat.add_assoc,
      Nat.div_add_mod']

/-- Settles O59. -/
theorem destinationMapIsOneToOneOnto : Obligations.DestinationMapIsOneToOneOnto :=
  fun s => ⟨fun x y k hx hy hk => ⟨dstBase_le_destAddr s x y k, destAddr_lt hx hy hk⟩,
    fun _ _ _ _ _ _ hx _ hk hx' _ hk' h => destAddr_inj hx hk hx' hk' h, fun _ => exists_destAddr⟩

/-! ## The destination painted sub-pixel by sub-pixel (R102, R106) -/

/-- Sub-pixel k of source pixel (x, y): out[k] of dispatch on its neighbourhood and its pattern (R95, R102). -/
def subColour (s : State) (x y k : Nat) : Word :=
  subPixel s.cfg s.eff (table s) (factor s) (pixelPattern s x y) (gather s x y) k

/-- The outputs of a source pixel are the colours of its sub-pixels. -/
theorem pixelOut_getD (s : State) (x y : Nat) {k : Nat} (hk : k < factor s * factor s) :
    (pixelOut s x y)[k]?.getD 0 = subColour s x y k := by
  have hk16 : k < 16 := hk.trans_le (factor_mul_factor_le s)
  rw [Vector.getElem?_eq_getElem hk16, Option.getD_some]
  exact (dispatchInto_getElem _ _ _ _ _ _ _ ⟨k, hk16⟩).trans (if_pos hk)

/-- Memory m is that of s after MAGNIFY has written, in the order of R107, every sub-pixel before sub-pixel K of source
pixel (X, Y). -/
structure Painted (s : State) (m : Memory) (Y X K : Nat) : Prop where
  wf : m.wf = true
  kept : ∀ b, b < 4 * s.dstBase.toNat ∨ 4 * (s.dstBase.toNat + destExtent s) ≤ b → m.readByte b = s.mem.readByte b
  written : ∀ x y k, x < widthOf s → y < heightOf s → k < factor s * factor s →
    (y < Y ∨ y = Y ∧ (x < X ∨ x = X ∧ k < K)) → m.readWord s.cfg.byteOrder (destAddr s x y k) = subColour s x y k

namespace Painted
variable {s : State} {m : Memory} {Y X K : Nat}

theorem start (hwf : s.mem.wf = true) : Painted s s.mem 0 0 0 where
  wf := hwf
  kept := fun _ _ => rfl
  written := fun x y k _ _ _ hbefore => by omega

/-- One put: the new word holds its colour, no other word changes. -/
theorem put (h : Painted s m Y X K) (hX : X < widthOf s) (hY : Y < heightOf s) (hK : K < factor s * factor s) :
    Painted s (putPixel s X Y K (subColour s X Y K) m) Y X (K + 1) where
  wf := Memory.wf_writeWord _ _ _ _ h.wf
  kept := fun b hb => by
    have hlo := dstBase_le_destAddr s X Y K
    have hhi := destAddr_lt hX hY hK
    exact (Memory.readByte_writeWord_outside _ _ _ _ _ h.wf (by omega)).trans (h.kept b hb)
  written := fun x y k hx hy hk hbefore => by
    by_cases haddr : destAddr s x y k = destAddr s X Y K
    · obtain ⟨rfl, rfl, rfl⟩ := destAddr_inj hx hk hX hK haddr
      exact Memory.readWord_writeWord_same _ _ _ _ h.wf
    · have hne : ¬ (y = Y ∧ x = X ∧ k = K) := fun ⟨hy, hx, hk⟩ => haddr (by rw [hx, hy, hk])
      rw [putPixel, Memory.readWord_writeWord_other _ _ _ _ _ h.wf haddr]
      exact h.written x y k hx hy hk (by omega)

/-- All sub-pixels of a source pixel written, MAGNIFY stands at the next in the row. -/
theorem nextPixel (h : Painted s m Y X (factor s * factor s)) : Painted s m Y (X + 1) 0 :=
  { h with written := fun x y k hx hy hk hbefore => h.written x y k hx hy hk (by omega) }

/-- A whole row written, MAGNIFY stands at the start of the next. -/
theorem nextRow (h : Painted s m Y (widthOf s) 0) : Painted s m (Y + 1) 0 0 :=
  { h with written := fun x y k hx hy hk hbefore => h.written x y k hx hy hk (by omega) }

end Painted

/-- Writes to the destination leave every neighbourhood of the source as it stood. -/
theorem Painted.gather_eq {s : State} {m : Memory} {Y X K x y : Nat} (h : Painted s m Y X K) (hapart : ExtentsApart s)
    (hx : x < widthOf s) (hy : y < heightOf s) (l : Latch) :
    gather { s with latch := l, mem := m } x y = gather s x y := by
  refine Vector.ext fun j hj => ?_
  have hw := gather_getElem s x y ⟨j, hj⟩
  have hw' := gather_getElem { s with latch := l, mem := m } x y ⟨j, hj⟩
  have hoff := neighbourOffset_lt hx hy ((j % 3 : Nat) - 1) ((j / 3 : Nat) - 1)
  refine hw'.trans ((Memory.readWord_congr _ _ _ _ fun b hb => h.kept b ?_).trans hw.symm)
  have hword : b / 4 = s.srcBase.toNat + neighbourOffset s x y ((j % 3 : Nat) - 1) ((j / 3 : Nat) - 1) := hb
  unfold ExtentsApart at hapart
  omega

/-! ## MAGNIFY's loops (R102, R107) -/

/-- What holds at the start of a loop over 0 to n - 1 and goes from each turn to the next holds at its end. -/
theorem foldl_range_induction {σ : Type} (P : Nat → σ → Prop) {f : σ → Nat → σ} {n : Nat} {u : σ} (h0 : P 0 u)
    (hturn : ∀ i v, i < n → P i v → P (i + 1) (f v i)) : P n ((List.range n).foldl f u) := by
  induction n with
  | zero => exact h0
  | succ n ih =>
    rw [List.range_succ, List.foldl_append]
    exact hturn n _ (Nat.lt_succ_self n) (ih fun i v hi => hturn i v (Nat.lt_succ_of_lt hi))

/-- MAGNIFY started in s stands in u at source pixel (X, Y): only the latch and the painted memory have changed. -/
structure MagnifiedTo (s u : State) (Y X : Nat) : Prop where
  frame : u = { s with latch := u.latch, mem := u.mem }
  painted : Painted s u.mem Y X 0

namespace MagnifiedTo
variable {s u : State} {Y X : Nat}

theorem widthOf_eq (h : MagnifiedTo s u Y X) : widthOf u = widthOf s := by rw [h.frame]; rfl

/-- The colours of a source pixel are those of the start. -/
theorem subColour_eq (h : MagnifiedTo s u Y X) (hapart : ExtentsApart s) {x y : Nat} (hx : x < widthOf s)
    (hy : y < heightOf s) (k : Nat) : subColour u x y k = subColour s x y k := by
  have hg := h.painted.gather_eq hapart hx hy u.latch
  rw [h.frame, subColour, pixelPattern, hg]
  rfl

theorem pixel (h : MagnifiedTo s u Y X) (hapart : ExtentsApart s) (hX : X < widthOf s) (hY : Y < heightOf s) :
    MagnifiedTo s (magnifyPixel u X Y) Y (X + 1) where
  frame := by
    have hpixel : magnifyPixel u X Y = { u with latch := pixelLatch u X Y, mem := pixelMemory u X Y } := by
      simp only [magnifyPixel]
    rw [hpixel]
    generalize pixelLatch u X Y = l
    generalize pixelMemory u X Y = m
    rw [h.frame]
  painted := by
    have hput : ∀ k m v, putPixel u X Y k v m = putPixel s X Y k v m := fun k m v => by rw [h.frame]; rfl
    have hfactor : factor u = factor s := by rw [h.frame]; rfl
    rw [magnifyPixel_mem, pixelMemory, hfactor]
    refine (foldl_range_induction (fun k m => Painted s m Y X k) h.painted fun k m hk hm => ?_).nextPixel
    rw [pixelOut_getD u X Y (hfactor ▸ hk), hput, h.subColour_eq hapart hX hY]
    exact hm.put hX hY hk

theorem row (h : MagnifiedTo s u Y 0) (hapart : ExtentsApart s) (hY : Y < heightOf s) :
    MagnifiedTo s (magnifyRow u Y) (Y + 1) 0 := by
  rw [magnifyRow, h.widthOf_eq]
  have hrow := foldl_range_induction (fun X v => MagnifiedTo s v Y X) h fun X v hX hv => hv.pixel hapart hX hY
  exact ⟨hrow.frame, hrow.painted.nextRow⟩

end MagnifiedTo

/-- MAGNIFY's loops over disjoint extents paint the whole destination. -/
theorem magnifyImage_painted {s : State} (hwf : s.mem.wf = true) (hapart : ExtentsApart s) :
    Painted s (magnifyImage s).mem (heightOf s) 0 0 :=
  (foldl_range_induction (fun Y v => MagnifiedTo s v Y 0) ⟨rfl, .start hwf⟩ fun _ _ hY hv => hv.row hapart hY).painted

/-- What MAGNIFY does where its checks pass on an image that is not empty: in its final memory every sub-pixel stands at its
destination word. -/
theorem exec_magnify_painted {s : State} (hf : s.fault = false) (hl : s.lutValid = true) (hwf : s.mem.wf = true)
    (hc : magnifyCheck s = none) (he : sourceExtent s ≠ 0) :
    ∃ t, exec .magnify s = .next t ∧ t = { s with eff := effOf s, latch := t.latch, mem := t.mem } ∧
      Painted (latchThr s) t.mem (heightOf s) 0 0 :=
  ⟨_, exec_magnify_of_passed hf hl hc he, magnifyImage_eq (latchThr s),
    magnifyImage_painted (s := latchThr s) hwf (extentsApart_of_magnifyCheck hc he)⟩

/-- Settles O57. -/
theorem magnifyWritesTheMagnifiedImage : Obligations.MagnifyWritesTheMagnifiedImage := by
  rintro s n de hf hl hwf rfl rfl hc hw hh
  have he : sourceExtent s ≠ 0 :=
    Nat.mul_ne_zero (fun h => hw (BitVec.eq_of_toNat_eq h)) (fun h => hh (BitVec.eq_of_toNat_eq h))
  obtain ⟨t, hexec, hframe, hpainted⟩ := exec_magnify_painted hf hl hwf hc he
  refine ⟨t, hexec, hframe, fun x y sx sy hx hy hsx hsy => ?_, hpainted.kept⟩
  have hcfg : t.cfg = s.cfg := by rw [hframe]
  have hword := hpainted.written x y (sy * factor s + sx) hx hy (mul_factor_add_lt hsy hsx) (.inl hy)
  rw [memRead, hcfg]
  exact (congrArg _ (destAddr_subPixel hsx x y sy)).symm.trans hword

/-! ## Uniform images (R97, R109) -/

/-- In a uniform source every neighbourhood is uniform. -/
theorem gather_uniform {s : State} {c : Word}
    (hsrc : ∀ a, s.srcBase.toNat ≤ a → a < s.srcBase.toNat + sourceExtent s → memRead s a = c) {x y : Nat}
    (hx : x < widthOf s) (hy : y < heightOf s) (i : Fin 9) : (gather s x y)[i] = c := by
  rw [gather_getElem]
  exact hsrc _ (Nat.le_add_right ..) (Nat.add_lt_add_left (neighbourOffset_lt hx hy _ _) _)

/-- Settles O60: an empty image has no destination; else every destination word is a sub-pixel of a uniform
neighbourhood. -/
theorem uniformImageMagnifiesToUniformImage : Obligations.UniformImageMagnifiesToUniformImage := by
  intro s c hf hl hwf h521 hc hsrc
  by_cases he : sourceExtent s = 0
  · refine ⟨s, exec_magnify_of_empty hf hl he, fun a hlo hhi => ?_⟩
    rw [destExtent_of_sourceExtent he] at hhi
    omega
  · obtain ⟨t, hexec, hframe, hpainted⟩ := exec_magnify_painted hf hl hwf hc he
    refine ⟨t, hexec, fun a hlo hhi => ?_⟩
    obtain ⟨x, y, k, hx, hy, hk, rfl⟩ := exists_destAddr hlo hhi
    have hcfg : t.cfg = s.cfg := by rw [hframe]
    have hcolour : subColour (latchThr s) x y k = c :=
      (uniformNeighbourhoodStaysUniform _ _ _ _ _ _ c k h521 (table_wf s) (gather_uniform hsrc hx hy) hk).1
    rw [memRead, hcfg, ← hcolour]
    exact hpainted.written x y k hx hy hk (.inl hy)

end Sys2Proof.Machine

/-!
PROOFS. Control (R110): NOP.
-/

namespace Sys2Proof.Machine

/-! ## NOP (R110) -/

/-- NOP is a command of its own, with no check of the LUT. -/
theorem exec_nop (s : State) : exec .nop s = command s (.next s) := rfl

/-- Settles O8: with a fault pending NOP is ignored (R117), and run it keeps its state. -/
theorem nopChangesNothing : Obligations.NopChangesNothing := by
  intro s
  cases hf : s.fault with
  | true => exact exec_command_of_fault rfl hf
  | false => rw [exec_nop, command_of_no_fault _ _ hf]

end Sys2Proof.Machine

/-!
PROOFS. Faults (R115, R116, R118): raising one is precise, and a pending one is kept until it is cleared. Both are read off
what an instruction can do to FAULT.
-/

namespace Sys2Proof.Machine

/-! ## Plain stores -/

@[simp] theorem storeReg_fault (r : Reg) (v : Word) (s : State) : (storeReg r v s).fault = s.fault := by cases r <;> rfl
@[simp] theorem storeReg_faultCode (r : Reg) (v : Word) (s : State) : (storeReg r v s).faultCode = s.faultCode := by
  cases r <;> rfl

/-! ## What an instruction can do to FAULT (R116, R118) -/

/-- What an instruction can do to FAULT and FAULT_CODE: keep both, raise a fault where none is pending (a read then answers
0), or clear both by the W1C action of R24. -/
inductive FaultEffect (i : Instr) (s : State) : State → Prop
  | kept {t : State} (hfault : t.fault = s.fault) (hcode : t.faultCode = s.faultCode) : FaultEffect i s t
  | raised (c : FaultCode) (hf : s.fault = false) (hi : ∀ x, i ≠ .rd x) : FaultEffect i s (raiseFault c s)
  | readRefused {x : BitVec 8} (hf : s.fault = false) (hi : i = .rd x) :
      FaultEffect i s (respond 0 (raiseFault .badReg s))
  | cleared (hi : i = .clrfault ∨ ∃ v : Word, i = .wr 0x02 v ∧ v.getLsbD 1 = true) : FaultEffect i s (clearFault s)

/-- With a fault pending, raising another keeps the first (R116). -/
theorem faultEffect_raiseFault {i : Instr} (hi : ∀ x, i ≠ .rd x) (c : FaultCode) (s : State) :
    FaultEffect i s (raiseFault c s) := by
  cases hf : s.fault with
  | true => rw [raiseFault_of_fault c s hf]; exact .kept rfl rfl
  | false => exact .raised c hf hi

theorem faultEffect_readRefused (x : BitVec 8) (s : State) :
    FaultEffect (.rd x) s (respond 0 (raiseFault .badReg s)) := by
  cases hf : s.fault with
  | true => rw [raiseFault_of_fault _ s hf]; exact .kept rfl rfl
  | false => exact .readRefused hf rfl

/-- A STATUS write, named as such or as clrfault, acts on the fault by its bit 1 (R24, R60). -/
theorem faultEffect_writeStatus {i : Instr} {v : Word} (hi : i = .wr 0x02 v ∨ i = .clrfault ∧ v = 2) (s : State) :
    FaultEffect i s (writeStatus v s) := by
  cases hbit : v.getLsbD 1 with
  | true =>
    rw [writeStatus_of_set hbit]
    exact .cleared (hi.symm.imp And.left fun hwr => ⟨v, hwr, hbit⟩)
  | false => rw [writeStatus_of_clear hbit]; exact .kept rfl rfl

/-- The command j raises a fault or keeps FAULT, run by itself (i = j) or as the CMD write i of its word. -/
theorem CommandEffect.faultEffect {i j : Instr} {s t : State} (h : CommandEffect j s t) (hi : ∀ x, i ≠ .rd x) :
    FaultEffect i s t := by
  cases h with
  | unchanged | lutFilled | lutReleased | computed => exact .kept rfl rfl
  | raised _ c hf => exact .raised c hf hi
  | magnified => exact .kept (by simp) (by simp)

theorem ExecEffect.faultEffect {i : Instr} {s t : State} (h : ExecEffect i s t) : FaultEffect i s t := by
  cases h with
  | command hcmd h => exact h.faultEffect (by rintro x rfl; cases hcmd)
  | cmdWrite _ h => exact h.faultEffect (by simp)
  | cmdIgnored | answered | resolved => exact .kept rfl rfl
  | raised _ c hi => exact faultEffect_raiseFault hi c s
  | stored v => exact .kept (storeReg_fault _ v s) (storeReg_faultCode _ v s)
  | statusWritten _ _ hi => exact faultEffect_writeStatus hi s
  | readRefused x => exact faultEffect_readRefused x s

/-! ## The statements -/

/-- Settles O22: only the two ways of raising a fault take FAULT from 0 to 1. -/
theorem faultIsPrecise : Obligations.FaultIsPrecise := by
  intro i s t h hf ht
  cases (execEffect_of_exec h).faultEffect with
  | kept hfault => rw [hfault, hf] at ht; cases ht
  | raised c _ hi =>
    rw [raiseFault_of_no_fault c s hf]
    obtain ⟨hlow, hhigh⟩ := faultNumber_bounds c
    exact ⟨rfl, hlow, hhigh, fun x hx => absurd hx (hi x), fun _ => rfl⟩
  | readRefused _ hi =>
    rw [raiseFault_of_no_fault _ s hf]
    obtain ⟨hlow, hhigh⟩ := faultNumber_bounds .badReg
    exact ⟨rfl, hlow, hhigh, fun _ _ => rfl, fun hne => absurd hi (hne _)⟩
  | cleared => cases ht

/-- Settles O23: with a fault pending none is raised, so it is kept or cleared. -/
theorem faultIsStickyUntilCleared : Obligations.FaultIsStickyUntilCleared := by
  intro i s t h hf
  cases (execEffect_of_exec h).faultEffect with
  | kept hfault hcode => exact .inl ⟨hfault.trans hf, hcode⟩
  | raised _ hn | readRefused hn => rw [hf] at hn; cases hn
  | cleared hi => exact .inr ⟨hi, rfl⟩

end Sys2Proof.Machine

/-!
PROOFS. Reset and hazards (R127, R128, R130): the values of reset, the reset input between transactions, a transaction reset
cuts short, and a register read after a write. Of a MAGNIFY cut short every word of memory is old, or in the destination
extent and new.
-/

namespace Sys2Proof.Machine

/-! ## The reset state and the reset input (R127) -/

theorem resetInput_atReset (s : State) : (resetInput s).AtReset := resetOf_atReset s.chip

/-- Settles O9. -/
theorem resetStateHoldsTheSpecValues : Obligations.ResetStateHoldsTheSpecValues := by
  refine ⟨resetOf_atReset Config.chip, rfl, ?_⟩
  rw [capsWord_eq_ofNat]
  rfl

/-- Settles O10. -/
theorem resetInputRestoresTheRegisters : Obligations.ResetInputRestoresTheRegisters := by
  intro s rest hin
  exact ⟨_, step_of_inputs hin, resetInput_atReset _, rfl, rfl, rfl⟩

/-- Settles O14: the parameters are legal by the type of the chip, the memory is empty, and no fault is pending. -/
theorem resetStateMeetsTheInvariant : Obligations.ResetStateMeetsTheInvariant :=
  ⟨State.reset.chip.legal, rfl, rfl, Nat.zero_lt_succ 7, fun _ => rfl, fun hf => by cases hf⟩

/-! ## A MAGNIFY cut short (R128, I24; log 14) -/

/-- The word addresses of the destination extent, as a range. -/
theorem mem_destAddrs {s : State} {a : Nat} :
    a ∈ destAddrs s ↔ s.dstBase.toNat ≤ a ∧ a < s.dstBase.toNat + destExtent s := by
  rw [destAddrs, List.mem_map]
  constructor
  · rintro ⟨i, hi, rfl⟩
    exact ⟨Nat.le_add_right .., Nat.add_lt_add_left (List.mem_range.mp hi) _⟩
  · rintro ⟨hlo, hhi⟩
    exact ⟨a - s.dstBase.toNat, List.mem_range.mpr (by omega), by omega⟩

/-- Every word of the canonical memory m is old, as in s, or, in the destination extent of s, new, as in done. -/
structure OldOrNew (s : State) (done m : Memory) : Prop where
  wf : m.wf = true
  word : ∀ b, m.readWord s.cfg.byteOrder b = s.mem.readWord s.cfg.byteOrder b ∨
    (b ∈ destAddrs s ∧ m.readWord s.cfg.byteOrder b = done.readWord s.cfg.byteOrder b)

/-- Making one more word of the destination extent new. -/
theorem OldOrNew.takeNew {s : State} {done m : Memory} (h : OldOrNew s done m) {a : Nat} (ha : a ∈ destAddrs s) :
    OldOrNew s done (m.writeWord s.cfg.byteOrder a (done.readWord s.cfg.byteOrder a)) where
  wf := Memory.wf_writeWord _ _ _ _ h.wf
  word := fun b => by
    by_cases hb : b = a
    · subst hb
      exact .inr ⟨ha, Memory.readWord_writeWord_same _ _ _ _ h.wf⟩
    · rw [Memory.readWord_writeWord_other _ _ _ _ _ h.wf hb]
      exact h.word b

/-- Whatever words the free values take new, a MAGNIFY cut short leaves each old or new. -/
theorem cutMemory_oldOrNew {s : State} (hwf : s.mem.wf = true) (done : Memory) : OldOrNew s done (cutMemory s done) :=
  Memory.foldl_keeps (OldOrNew s done) _ _ _ ⟨hwf, fun _ => .inl rfl⟩ fun m a ha hm => by
    split
    · exact hm.takeNew ha
    · exact hm

/-- Only the write of MAGNIFY to CMD starts a MAGNIFY. -/
theorem decodeBus_of_startsMagnify {c : BitVec 41} {s : State} (h : startsMagnify c s = true) :
    decodeBus c = .wr 0x01 0x00000008 := by
  simp only [startsMagnify, Bool.and_eq_true, decide_eq_true_eq] at h
  obtain ⟨⟨⟨hdecode, -⟩, -⟩, -⟩ := h
  exact hdecode

theorem afterCut_atReset (c : BitVec 41) (s : State) (m : Memory) : (afterCut c s m).AtReset := resetOf_atReset s.chip

/-- A cut transaction takes its input, and leaves the reset state with the memory R128 allows. -/
theorem step_cut {s u : State} {c : BitVec 41} {rest : List Input} (hin : s.inputs = .cut c :: rest)
    (hu : exec (decodeBus c) { s with inputs := rest } = .next u) :
    step s = .next (afterCut c { s with inputs := rest }
      (if startsMagnify c { s with inputs := rest } then cutMemory { s with inputs := rest } u.mem else s.mem)) := by
  rw [step_of_inputs hin, runInput, runCut, runBus, hu]

/-- Settles O11: a transaction that starts no MAGNIFY leaves memory as it was, and one that does leaves each word old or as
the whole MAGNIFY writes it. -/
theorem cutTransactionLeavesEachWordOldOrNew : Obligations.CutTransactionLeavesEachWordOldOrNew := by
  intro s c rest hin hwf
  obtain ⟨u, hu⟩ := everyTransactionAnswersANextState { s with inputs := rest } c
  refine ⟨_, step_cut hin hu, afterCut_atReset c _ _, rfl, fun a => ?_⟩
  cases hstart : startsMagnify c { s with inputs := rest } with
  | false => exact .inl rfl
  | true =>
    have hdecode := decodeBus_of_startsMagnify hstart
    rw [hdecode, exec_wr_cmd_of_ok (i := .magnify) rfl] at hu
    have hcfg : u.cfg = s.cfg := congrArg Chip.params (execEffect_of_exec hu).chip
    obtain hold | ⟨ha, hnew⟩ := (cutMemory_oldOrNew (s := { s with inputs := rest }) hwf u.mem).word a
    · exact .inl hold
    · obtain ⟨hlo, hhi⟩ := mem_destAddrs.mp ha
      refine .inr ⟨eq_busWrite_of_decodeBus hdecode, hlo, hhi, u, hu, hnew.trans ?_⟩
      rw [memRead, hcfg]

/-! ## A register read after a write (R130) -/

/-- The RW rows of the map of R20, index by index. -/
theorem regOf_any_isRw : ∀ j : Fin 0x29, ((0x03 ≤ j.val ∧ j.val ≤ 0x11 ∧ j.val ≠ 0x0B) ∨ 0x20 ≤ j.val) →
    (regOf (BitVec.ofNat 8 j.val)).any isRw = true := by decide

/-- The RW indices of R37 hold registers with a plain store. -/
theorem regOf_writable {i : BitVec 8}
    (h : (0x03 ≤ i.toNat ∧ i.toNat ≤ 0x11 ∧ i ≠ 0x0B) ∨ (0x20 ≤ i.toNat ∧ i.toNat ≤ 0x28)) :
    ∃ r, regOf i = some r ∧ isRw r = true := by
  have hrow := regOf_any_isRw ⟨i.toNat, by omega⟩
    (h.imp (fun ⟨hlo, hhi, hne⟩ => ⟨hlo, hhi, fun hi => hne (BitVec.eq_of_toNat_eq hi)⟩) And.left)
  rw [BitVec.ofNat_toNat, BitVec.setWidth_eq] at hrow
  exact (Option.any_eq_true ..).mp hrow

/-- A plain store is read back, of CTRL its low three bits (R25). -/
theorem readReg_storeReg {r : Reg} (hw : isRw r = true) (v : Word) (s : State) :
    readReg (storeReg r v s) r = if r = .ctrl then v &&& ctrlMask else v := by
  cases r with
  | caps | cmd | status | result | out => cases hw
  | nb i => exact Vector.getElem_set_self i.isLt
  | _ => rfl

/-- Index 0x03 is that of CTRL. -/
theorem regOf_ctrl_iff {i : BitVec 8} {r : Reg} (h : regOf i = some r) : i = 0x03 ↔ r = .ctrl := by
  constructor
  · rintro rfl
    exact (Option.some.inj h).symm
  · rintro rfl
    exact eq_regIndex_of_regOf h

/-- Settles O21. -/
theorem readAfterWriteReturnsTheWrittenValue : Obligations.ReadAfterWriteReturnsTheWrittenValue := by
  intro i v s hi
  obtain ⟨r, hr, hw⟩ := regOf_writable hi
  have hcmd : r ≠ .cmd := by rintro rfl; cases hw
  refine ⟨_, _, exec_wr_rw hr hw v s, exec_rd_reg hr hcmd _, ?_⟩
  rw [respond, readReg_storeReg hw, if_congr (regOf_ctrl_iff hr) rfl rfl, ctrlMask]

end Sys2Proof.Machine

/-!
PROOFS. The form of the rounding to 53 bits (R62; log 15): what it answers for a number of 54 bits or more is a quotient of
53 bits, or the next one up, times the unit in the last place; and in a tie the quotient is even.
-/

namespace Sys2Proof.Machine

/-! ## Rounding to nearest, ties to even (R62) -/

section
variable {n k : Nat} (hk : Nat.log2 n = k + 53)
include hk

/-- A number of k + 54 bits is rounded to a multiple of 2^(k + 1), up past half of that or in a tie with an odd quotient. -/
theorem roundNat53_of_log2 :
    roundNat53 n = (if 2 ^ k < n % 2 ^ (k + 1) ∨ (n % 2 ^ (k + 1) = 2 ^ k ∧ n / 2 ^ (k + 1) % 2 = 1)
      then n / 2 ^ (k + 1) + 1 else n / 2 ^ (k + 1)) * 2 ^ (k + 1) := by
  have hbig : 2 ^ 53 ≤ n := (Nat.le_log2 fun h0 => by simp [h0] at hk).mp (by omega)
  have hunit : Nat.log2 n - 52 = k + 1 := by omega
  simp only [roundNat53, if_neg (Nat.not_lt.mpr hbig), hunit, Nat.shiftRight_eq_div_pow, Nat.shiftLeft_eq,
    Nat.add_sub_cancel]

/-- The quotient rounded down has 53 bits. -/
theorem quotient53_bounds : 2 ^ 52 ≤ n / 2 ^ (k + 1) ∧ n / 2 ^ (k + 1) < 2 ^ 53 := by
  have hne : n ≠ 0 := fun h0 => by simp [h0] at hk
  constructor
  · rw [Nat.le_div_iff_mul_le (Nat.two_pow_pos _), ← Nat.pow_add]
    exact (Nat.le_log2 hne).mp (by omega)
  · rw [Nat.div_lt_iff_lt_mul (Nat.two_pow_pos _), ← Nat.pow_add]
    exact (Nat.log2_lt hne).mp (by omega)

/-- The rounded quotient: its bounds, and that a tie makes it even. -/
theorem exists_quotient_of_log2 :
    ∃ q, roundNat53 n = q * 2 ^ (k + 1) ∧ 2 ^ 52 ≤ q ∧ q ≤ 2 ^ 53 ∧
      (2 * ((roundNat53 n : Int) - n).natAbs = 2 ^ (k + 1) → q % 2 = 0) := by
  obtain ⟨hlo, hhi⟩ := quotient53_bounds hk
  have hdiv := Nat.div_add_mod n (2 ^ (k + 1))
  have hpow : 2 ^ (k + 1) = 2 * 2 ^ k := Nat.pow_succ'
  rw [Nat.mul_comm] at hdiv
  refine ⟨_, roundNat53_of_log2 hk, ?_⟩
  rw [roundNat53_of_log2 hk]
  split
  · next hup =>
    refine ⟨by omega, by omega, fun htie => ?_⟩
    rw [Nat.add_mul, Nat.one_mul] at htie
    have hhalf : n % 2 ^ (k + 1) = 2 ^ k := by omega
    have hodd : n / 2 ^ (k + 1) % 2 = 1 := (hup.resolve_left (by omega)).2
    omega
  · next hdown =>
    refine ⟨hlo, hhi.le, fun htie => ?_⟩
    have hhalf : n % 2 ^ (k + 1) = 2 ^ k := by omega
    have hnotOdd : n / 2 ^ (k + 1) % 2 ≠ 1 := fun hodd => hdown (.inr ⟨hhalf, hodd⟩)
    omega

end

/-- Rounding takes the sign along. -/
theorem round64_neg_natCast (n : Nat) : round64 (-(n : Int)) = -(roundNat53 n : Int) := by
  cases n with
  | zero => rfl
  | succ m => rfl

/-- Settles O33: the error by `two_mul_roundNat53_error_le`, the quotient and the tie by `exists_quotient_of_log2`. -/
theorem roundingIsToNearestEven : Obligations.RoundingIsToNearestEven := by
  intro n
  refine ⟨rfl, round64_neg_natCast n, fun hsmall => if_pos hsmall, fun hbig => ?_⟩
  have hlog : 53 ≤ Nat.log2 n := (Nat.le_log2 (by omega)).mpr hbig
  obtain ⟨k, hk⟩ : ∃ k, Nat.log2 n = k + 53 := ⟨Nat.log2 n - 53, by omega⟩
  obtain ⟨q, hround, hlo, hhi, htie⟩ := exists_quotient_of_log2 hk
  have hunit : Nat.log2 n - 52 = k + 1 := by omega
  have herror := two_mul_roundNat53_error_le hbig
  rw [hunit] at herror ⊢
  exact ⟨q, hround, hlo, hhi, herror, htie⟩

end Sys2Proof.Machine

/-!
PROOFS. Words of the opcode table (R53 to R61): which word the decoder reads an instruction from, and the words the spec
prints.
-/

namespace Sys2Proof

/-! ## Table words -/

/-- An instruction is read from a table word through the code word of its format. -/
theorem decodeTableWord_eq_some_iff {nbits w : Nat} {i : Instr} :
    decodeTableWord nbits w = some i ↔ ∃ c, codeWordOf nbits w = some c ∧ decode c = .ok i := by
  unfold decodeTableWord
  cases codeWordOf nbits w with
  | none => simp
  | some c => cases hd : decode c <;> simp [hd]

/-- The word of a well-formed instruction is read as that instruction. -/
theorem decodeTableWord_of_encode {nbits w : Nat} {i : Instr} (hw : codeWordOf nbits w = some (encode i))
    (hwf : i.wf = true) : decodeTableWord nbits w = some i :=
  decodeTableWord_eq_some_iff.mpr ⟨encode i, hw, decodeOfEncodeIsTheInstruction i hwf⟩

/-- A command word that R55 rejects is read as no instruction. -/
theorem decodeTableWord_of_illegal {w : Nat} {v : BitVec 32} (hw : codeWordOf 32 w = some (.cmd v))
    (h : cmdHigh v ≠ 0 ∨ opcodeMap (cmdPat v) (cmdOp v).toNat = none ∨ (cmdOp v ≠ 6 ∧ cmdPat v ≠ 0)) :
    decodeTableWord 32 w = none := by
  simp only [decodeTableWord, hw, decode, decodeCmd_error h]

/-- Settles O3: each word is the encoding of its instruction; 0x00000107 is PIXEL with a PAT that is not 0. -/
theorem specWordsDecodeAsWritten : Obligations.SpecWordsDecodeAsWritten :=
  ⟨decodeTableWord_of_encode rfl rfl, decodeTableWord_of_encode rfl rfl, decodeTableWord_of_encode rfl rfl,
    decodeTableWord_of_illegal rfl (.inr (.inr (by decide))), decodeTableWord_of_encode rfl rfl,
    decodeTableWord_of_encode rfl rfl, decodeTableWord_of_encode rfl rfl, decodeTableWord_of_encode rfl rfl,
    decodeTableWord_of_encode rfl rfl, decodeTableWord_of_encode rfl rfl, decodeTableWord_of_encode rfl rfl,
    decodeTableWord_of_encode rfl rfl⟩

end Sys2Proof

/-!
PROOFS. Steps (R117, R126; logs 1, 10, 16): what a step does with the oldest input, that a word of the opcode table presented
to the core runs as the instruction it decodes to, and that with a fault pending every command is ignored.
-/

namespace Sys2Proof.Machine

/-! ## Inputs run as their decoding -/

/-- With no input the core is idle (R126). -/
theorem step_of_no_inputs {s : State} (h : s.inputs = []) : step s = .next s := by
  rw [step, takeInput, h]

/-- A table entry from the inputs runs as its decoding (R57; log 10). -/
theorem runEntry_of_decode {e : BitVec 64} {i : Instr} (h : decodeEntry e = .ok i) (s : State) :
    runEntry e s = exec i s := by
  rw [runEntry, h]

/-- A recipe from the inputs runs as its decoding (R56; log 10). -/
theorem runRecipe_of_decode {r : BitVec 16} {i : Instr} (h : decodeRecipe r = .ok i) (s : State) :
    runRecipe r s = exec i s := by
  rw [runRecipe, h]

/-- Settles O5: the oldest input acts, and an entry or a recipe acts as its decoding. -/
theorem stepRunsTheDecodedInstruction : Obligations.StepRunsTheDecodedInstruction :=
  fun _ _ => ⟨step_of_no_inputs, fun _ hin => step_of_inputs hin,
    fun _ _ hin hd => (step_of_inputs hin).trans (runEntry_of_decode hd _),
    fun _ _ hin hd => (step_of_inputs hin).trans (runRecipe_of_decode hd _)⟩

/-! ## Presented words (log 1) -/

/-- The input that presents a code word: a command word is written to CMD. -/
def presented (c : CodeWord) : Input :=
  match c with
  | .cmd v => .bus (busWrite 0x01 v)
  | .recipe r => .recipe r
  | .entry e => .entry e
  | .bus t => .bus t

/-- The input of a table word presents its code word. -/
theorem inputOf_of_codeWordOf {nbits w : Nat} {c : CodeWord} (h : codeWordOf nbits w = some c) :
    inputOf nbits w = presented c := by
  unfold codeWordOf at h
  split at h
  case h_6 => cases h
  all_goals
    split at h
    · obtain rfl := Option.some.inj h
      rfl
    · cases h

/-- The write of v to CMD as a transaction. -/
theorem decodeBus_busWrite_cmd (v : Word) : decodeBus (busWrite 0x01 v) = .wr 0x01 v := by
  simp [decodeBus]

/-- A code word presented runs as its decoding. -/
theorem runInput_presented {c : CodeWord} {i : Instr} (h : decode c = .ok i) (s : State) :
    runInput (presented c) s = exec i s := by
  cases c with
  | cmd v =>
    calc runInput (presented (.cmd v)) s = exec (decodeBus (busWrite 0x01 v)) s := rfl
      _ = exec (.wr 0x01 v) s := by rw [decodeBus_busWrite_cmd]
      _ = exec i s := exec_wr_cmd_of_ok h s
  | recipe r => exact runRecipe_of_decode h s
  | entry e => exact runEntry_of_decode h s
  | bus t =>
    obtain rfl : decodeBus t = i := Except.ok.inj h
    rfl

/-- Presenting a word puts its input before the others, and the step takes it. -/
theorem step_withFetchWord (s : State) (nbits w : Nat) :
    step (s.withFetchWord nbits w) = runInput (inputOf nbits w) s :=
  step_of_inputs rfl

/-- Settles O6, through the code word that is presented. -/
theorem presentedWordIsTheNextInstruction : Obligations.PresentedWordIsTheNextInstruction := by
  intro nbits w i s h
  obtain ⟨c, hc, hd⟩ := decodeTableWord_eq_some_iff.mp h
  rw [step_withFetchWord, inputOf_of_codeWordOf hc, runInput_presented hd]

/-! ## Commands while FAULT = 1 (R117; log 16) -/

/-- Settles O24: a command word decodes to a command row, and each of those checks FAULT first. -/
theorem everyCommandIsIgnoredWhileFaulted : Obligations.EveryCommandIsIgnoredWhileFaulted :=
  fun _ _ _ hd hf => exec_command_of_fault (isCommand_of_decodeCmd hd) hf

end Sys2Proof.Machine
